-- ==== Sys2Proof/Word.lean ====
section
/-!
DEFINITION. Word.lean: the word types, keyed tables and little-endian byte lists that every other file uses.
A keyed table (`Tab`) is plain data: a list of key and value pairs; a key that is not listed reads as the default the
reader names, so a family of 48 ports or 1,024 queues is empty at reset.
-/
namespace Sys2Proof

/-- One byte. -/
abbrev Byte := BitVec 8
/-- A 32-bit register (R7). -/
abbrev Word := BitVec 32
/-- The bits of an IEEE 754 binary32 value (R189). -/
abbrev F32 := BitVec 32
/-- Stamp96: TAI seconds [95:48], nanoseconds [47:16], fraction [15:0] (R333). -/
abbrev Stamp96 := BitVec 96

/-- A family of values by key, keys rising. -/
abbrev Tab (α : Type) := List (Nat × α)

/-- The value at key `k`, `d` when the key is not listed. -/
def Tab.get {α : Type} (d : α) : Tab α → Nat → α
  | [], _ => d
  | (j, v) :: r, k => if k = j then v else Tab.get d r k

/-- The table with `v` at key `k`. -/
def Tab.set {α : Type} : Tab α → Nat → α → Tab α
  | [], k, v => [(k, v)]
  | (j, w) :: r, k, v =>
    if k < j then (k, v) :: (j, w) :: r
    else if k = j then (k, v) :: r
    else (j, w) :: Tab.set r k v

/-- The table with the value at `k` passed through `f`. -/
def Tab.modify {α : Type} (d : α) (t : Tab α) (k : Nat) (f : α → α) : Tab α := t.set k (f (t.get d k))

/-- The table without key `k`. -/
def Tab.erase {α : Type} : Tab α → Nat → Tab α
  | [], _ => []
  | (j, w) :: r, k => if k = j then r else (j, w) :: Tab.erase r k

/-- The value at key `k`, if it is listed. -/
def Tab.find {α : Type} : Tab α → Nat → Option α
  | [], _ => none
  | (j, v) :: r, k => if k = j then some v else Tab.find r k

/-- A counter of `w` bits that stops at its top value. -/
def satInc {w : Nat} (x : BitVec w) : BitVec w := if x = BitVec.allOnes w then x else x + 1

/-- `x` held within `lo` and `hi`. -/
def clampInt (lo hi x : Int) : Int := max lo (min hi x)

/-- Bit `i` of `x`. -/
def bitN (x i : Nat) : Bool := x.testBit i

/-- A Boolean as 0 or 1. -/
def bit01 (b : Bool) : Nat := if b then 1 else 0

/-- The field [lo + w − 1 : lo] of `x`. -/
def fieldN (x lo w : Nat) : Nat := (x >>> lo) % 2 ^ w

/-- `n` bytes of `x`, least significant first. -/
def bytesLE : Nat → Nat → List Byte
  | 0, _ => []
  | n + 1, x => BitVec.ofNat 8 x :: bytesLE n (x / 256)

/-- The number that a little-endian byte list spells. -/
def natLE : List Byte → Nat
  | [] => 0
  | b :: r => b.toNat + 256 * natLE r

/-- The low `w` bits of `x` as a signed number. -/
def signedN (w x : Nat) : Int := (BitVec.ofNat w x).toInt

/-- A signed number as `w` bits. -/
def wrapN (w : Nat) (x : Int) : Nat := (BitVec.ofInt w x).toNat

/-- A mask of bits whose positions satisfy `p`, below `n`. -/
def maskOf (n : Nat) (p : Nat → Bool) : Nat :=
  (List.range n).foldl (fun m i => if p i then m + 2 ^ i else m) 0

/-- The number of set bits of `x` below `n`. -/
def popcount (n x : Nat) : Nat := ((List.range n).filter (bitN x)).length

/-- Round half away from zero of a quotient, the denominator positive. -/
def divRoundHalfAway (a b : Int) : Int := if 0 ≤ a then (2 * a + b) / (2 * b) else -((2 * (-a) + b) / (2 * b))

/-- Ceiling of a quotient. -/
def ceilDiv (a b : Nat) : Nat := (a + b - 1) / b

end Sys2Proof
end

