-- ==== Sys2Proof/Syntax.lean ====
section
/-!
DEFINITION. Syntax.lean: the commands of the block, one constructor per row of the opcode table, and the operand types
they carry. The first operand `t` of every command is the instant at which it happens, in TBASE ticks (1.6 ns) of the
device's own time since power was first applied (DESIGN CHOICE, log entry 4). The other operands are what the outside world supplies:
the level of a pin, the content of a frame or block that arrives, the outcome of a check that the manual leaves to an
engine, the arguments of a host command.
-/
namespace Sys2Proof

/-! ## Host commands -/

/-- The outcome of a command's data transfers (R399). -/
inductive Xfer where
  | ok | outFailed | inFailed
  deriving DecidableEq, Repr

/-- The command in flight that a host-command row executes: the gateway it was tunnelled from, if any, its queue pair
and its tag (R397). -/
structure CmdRef where
  gw : Option Nat
  qp : Nat
  tag : Nat
  xfer : Xfer := .ok
  deriving DecidableEq, Repr

/-- A descriptor (Table 12-5). `rsvd` holds every reserved bit of it. -/
structure Desc where
  opcode : Nat
  tag : Nat
  dest : Nat
  dout : Bool
  din : Bool
  fence : Bool
  bufLen : Nat
  rsvd : Nat
  args : List Byte
  data : List Byte           -- data out, when dout is set
  bufAddr : Nat := 0         -- host address of the buffer on PCIe
  deriving DecidableEq, Repr

/-- A completion (Table 12-6), less the fields the queue pair supplies. -/
structure CmdResult where
  status : Nat
  result : List Byte
  data : List Byte
  deriving DecidableEq, Repr

/-- The privilege levels (R402): 0 READ, 1 OPERATE, 2 CONFIGURE. -/
abbrev Level := Nat

/-- A frame of a mailbox session (Table 12-3): its type, the header's reserved bits, its length, and its content. -/
inductive SessFrame where
  | desc (d : Desc) (lenAgrees : Bool)
  | pong
  | other (type : Nat)
  deriving DecidableEq, Repr

/-! ## Safety -/

/-- The safety input pins (Table 13-1): SINn_A or SINn_B, SRST_A or SRST_B, SAFECFG[i]. -/
inductive SafePin where
  | sin (n : Nat) (b : Bool)
  | srst (b : Bool)
  | cfg (i : Nat)
  deriving DecidableEq, Repr

/-- Safety channel A or B. -/
inductive Chan where
  | a | b
  deriving DecidableEq, Repr

/-! ## Boot, security and faults -/

/-- The memories of R466. -/
inductive SramMem where
  | reedLocal (reed : Nat)
  | granulePool (queue : Nat)
  | recStaging
  | coefficient (slot : Nat)
  | l1 | l2 | retention
  deriving DecidableEq, Repr

/-- The user of the DRAM page that an error was found in (R464). -/
inductive DramUser where
  | recorder | staging | cast | eventLog | free
  deriving DecidableEq, Repr

/-- What the boot ROM meets when the device leaves reset: whether every I/O rail is in range and REFCLK present, the eight
strap samples (TWIN_SEL [0], SEG_ID [4:1], BOOT_SEL [6:5]), whether the OTP and ROM double reads and boot decisions agree,
whether a PCIe link trains within 100 ms, the image that a fabric partner delivers (empty: none), whether DRAM is found
and trained, and whether the journal memory answers and its last record is torn. -/
structure BootInputs where
  ioRails : Bool
  refclk : Bool
  straps : List Nat
  readsAgree : Bool
  pcieTrains : Bool
  fabricImage : List Byte
  dramTrained : Bool
  journalWorks : Bool
  journalTorn : Bool
  deriving DecidableEq, Repr

/-- An answer to a debug-unlock challenge (R454). -/
structure UnlockAnswer where
  scope : Nat
  sig : BitVec 768
  deriving DecidableEq, Repr

/-! ## Time -/

/-- The payload of a TIME block or time relay (Table 10-1), with the receiver's time-stamp of its marker in units of
2^−16 tick and the lane that carried it. Control time and wall time are in units of 2^−32 tick. -/
structure TimeMsg where
  root : Nat
  m : Nat
  gen : Nat
  hops : Nat
  ctValid : Bool
  tCross : Bool
  wallValid : Bool
  wallHold : Bool
  wallRef : Bool
  tMod : Nat
  tTx : Nat                 -- 2^−16 tick
  cycle : Nat
  tick : Nat
  tickF : Nat
  ctRate : Int
  wall : Stamp96
  wRate : Int
  acc : Nat
  deriving DecidableEq, Repr

/-! ## Supplies -/

/-- What a PMBus poll of one regulator returns: no valid answer, or the words read. -/
structure PmbRead where
  status : Nat
  vin : Nat
  vout : Nat
  iout : Nat
  temp : Nat
  deriving DecidableEq, Repr

/-- The wake sources of R487. -/
inductive WakeSource where
  | sysWake | doorbell | tcpSyn | laneEnergy | safety | alarm | restTimer | fabricUnit | modePower
  deriving DecidableEq, Repr

/-! ## Cell link -/

/-- Cell command states (Table 02-1). -/
inductive CellCmd where
  | byp | pos | neg | blk
  deriving DecidableEq, Repr

/-- A command frame (Table 03-2): CMD1, or CMD2 when it has a second state. -/
structure CmdFrame where
  sb : Bool
  h : Bool
  epoch : Nat                      -- 6 bits
  fire : Bool
  seq : Nat                        -- 8 bits
  s1 : CellCmd
  a1 : Nat
  second : Option (CellCmd × Nat)
  deriving DecidableEq, Repr

/-- CTRL operations (Table 03-6). -/
inductive CtrlOp where
  | nop | read | write | echo | syncEpoch | syncCycle | start | reset
  deriving DecidableEq, Repr

/-- A CTRL frame. -/
structure CtrlFrame where
  sb : Bool
  h : Bool
  epoch : Nat
  op : CtrlOp
  addr : Nat
  data : Nat
  deriving DecidableEq, Repr

/-- A downlink frame. -/
inductive DownFrame where
  | cmd (f : CmdFrame)
  | ctrl (f : CtrlFrame)
  deriving DecidableEq, Repr

/-- An uplink data frame (Table 03-3), less its type and CRC: DATA, or DATA2 when `double`. Sample j is bit j of its stream;
a DATA frame uses the low 25 bits of d0 and d1. -/
structure UpData where
  double : Bool                    -- DATA2
  state : Nat
  seq : Nat
  epoch : Nat
  goff : Bool
  idx : Nat
  val : Nat
  d0 : BitVec 50
  d1 : BitVec 50
  deriving DecidableEq, Repr

/-- An uplink frame. -/
inductive UpFrame where
  | data (f : UpData)
  | resp (addr data : Nat)
  deriving DecidableEq, Repr

/-- An uplink frame on the line: its port, the arrival of its marker in units of 0.25 ns, and the line bits after the
marker. -/
structure UpLine where
  port : Nat
  arr : Nat
  line : List Bool
  deriving DecidableEq, Repr

/-- Bring-up stages (Table 03-5); `off` is a port that is not brought up. -/
inductive PortStage where
  | off | listen | lock | measure | cap | config | align | start | run
  deriving DecidableEq, Repr

/-! ## Measurement -/

/-- The contents of one port's repair block (R289): port, d0 and d1. -/
structure PortBits where
  port : Nat
  d0 : BitVec 50
  d1 : BitVec 50
  deriving DecidableEq, Repr

/-- REPAIR_DATA (R289): a data block, or an absence block with its port mask. -/
inductive RepairData where
  | data (bits : List PortBits)
  | absent (mask : Nat)
  deriving DecidableEq, Repr

/-- An edge record (Table 04-10): its instant in TBASE ticks of control time, its release in units of 0.5 µs. -/
structure EdgeRec where
  entry : Bool
  neg : Bool
  s : Bool
  theta : Nat
  t : Int
  rel : Nat := 0
  deriving DecidableEq, Repr

/-! ## Cells and arms (chapter 2) -/

/-- One state byte of a key block (Table 02-4). -/
structure CellByte where
  present : Bool := false
  usable : Bool := false
  last : CellCmd := .byp
  fb : Bool := false
  frac : Bool := false
  degraded : Bool := false
  retiring : Bool := false
  deriving DecidableEq, Repr

/-- A key block (Table 02-3). -/
structure KeyBlock where
  cycLo : Nat
  seg : Nat
  twinB : Bool
  arm : Nat
  holder : Bool
  solo : Bool
  rep : Bool
  isolated : Bool
  dir : Bool
  nUse : Nat
  nFb : Nat
  presence : Nat
  vSum : Nat
  iArm : Int                       -- mA
  uEcho : Int                      -- 10 mV
  band : Nat
  vMin : Nat
  vMax : Nat
  keys : List Nat
  states : List CellByte
  deriving DecidableEq, Repr

/-- An arm reference record (Table 02-2). -/
structure RefRec where
  c0 : Nat
  nc : Nat
  arm : Nat
  cmd : Nat
  u0 : Int
  du : Int
  deriving DecidableEq, Repr

/-- A CV output of a cell as CAP4 takes it: its instant, its value, whether it is ok, and its release in units of 0.5 µs
(R45). -/
structure CapSample where
  t : Int
  v : F32
  ok : Bool
  rel : Nat
  deriving DecidableEq, Repr

/-- An insertion under way: its state, the sample before its start, the charge since that sample, and the parameters in force
when it began (R45, R83). -/
structure CapRun where
  st : CellCmd
  v0 : F32
  dq : F32
  shift : Nat
  dvMin : Nat
  deriving DecidableEq, Repr

/-- What the device held of a cell before it built the frame of the cycle in progress: that frame's outputs are discarded
when the cycle overruns (R68, R247). -/
structure CellPrev where
  frame : Option (Nat × CmdFrame)
  sched : List (Int × CellCmd)
  trans : List (Int × CellCmd × CellCmd)
  inst : Int
  last : CellCmd
  frac : Bool
  deriving DecidableEq, Repr

/-- What a reed keeps of one cell. Lists over the four transition classes hold entry with i_arm ≥ 0, entry with
i_arm < 0, exit with i_arm ≥ 0, exit with i_arm < 0 (R69). Instants are TBASE ticks of control time. -/
structure CellRec where
  seen : Bool := false
  vPred : F32 := 0
  hold : Nat := 0                  -- hold time, ticks
  cap : F32 := 0                   -- 0 until the first update: the estimate is then c_nom (R45)
  capReject : Nat := 0
  capWarned : Bool := false
  dly : List Int := []
  dlyRej : List Nat := []
  dlyUpd : List Nat := []
  dlyClamp : List Bool := []
  firstCmd : Option Int := none    -- control time of the first command other than BLK (R72)
  last : CellCmd := .blk           -- selection of the last cycle
  lastFrac : Bool := false
  lastInst : Int := -1             -- last instant issued
  lastFrame : Option (Nat × CmdFrame) := none   -- with its target cycle
  prev : Option CellPrev := none   -- before the frame of the cycle in progress
  sched : List (Int × CellCmd) := []            -- executed schedule, newest first
  capQ : List CapSample := []      -- CV outputs that CAP4 has still to take, oldest first (R45)
  capLast : Option CapSample := none   -- the last one taken
  open_ : Option CapRun := none    -- insertion under way
  trans : List (Int × CellCmd × CellCmd) := []  -- commanded transitions still to be judged
  swFail : Nat := 0
  unexp : List Int := []           -- edges without a command within 1 s
  nonBlk : Nat := 0                -- full cycles spent in a state other than BLK
  degraded : Bool := false
  holdOver : Bool := false         -- hold time exceeded (R44)
  badPred : Bool := false          -- prediction not finite or out of range (R48)
  retiring : Option Nat := none    -- cycle in which retirement began
  predictive : Bool := false
  notBefore : Nat := 0             -- a cancelled predictive retirement is reconsidered from this instant
  fired : Option Nat := none       -- instant of the first fire command
  lost : Bool := false             -- bypass unconfirmed (R78)
  lastDm : Option Int := none      -- δ_m of the last edge, ticks
  health : Bool := false           -- the predictive criterion of the health warning is met (R76)
  deriving DecidableEq, Repr

/-- A reference record as received: when, in own time, and whether from the twin over port T (R193). -/
structure RefGot where
  r : RefRec
  got : Nat
  twin : Bool
  deriving DecidableEq, Repr

/-- What the device keeps of one arm it serves. -/
structure ArmState where
  blocks : Tab KeyBlock := []      -- blocks used in this cycle, by segment
  retiringLast : Tab Nat := []     -- cells that retired in the last cycle's blocks, by segment, as a mask
  fresh : Nat := 0                 -- segments whose block of this cycle is fresh
  twinBlocks : Tab KeyBlock := []  -- blocks of this cycle received over port T
  lastFresh : Tab (Nat × KeyBlock) := []
  presence : Nat := 0              -- presence vector for the next own block
  late : Nat := 0                  -- late-block counter
  substs : Nat := 0                -- blocks substituted (Table 16-11)
  sats : Nat := 0                  -- EV_MOD_SATURATED
  gathered : Bool := false
  wants : Nat := 0                 -- segments named in the own WANT
  twinWants : Nat := 0             -- segments the twin wants
  lacks : Tab Nat := []            -- by other segment: consecutive cycles it lacked the own block
  isolated : Bool := false
  isoClean : Nat := 0              -- consecutive cycles marked fresh by all
  refs : List RefGot := []         -- records received, newest first
  record : Option RefRec := none   -- record that the selection of this cycle uses (R23)
  uRef : Option Int := none        -- its reference for this cycle
  uPrev : Int := 0                 -- reference used in the last cycle
  echoBad : Nat := 0               -- consecutive cycles with a different echo
  lead : List (Nat × Int) := []    -- fresh blocks of the arm lead: cycle and i_arm_ma, newest first
  dirNext : Bool := true           -- direction in the arm lead's last block
  bandNext : Nat := 0              -- band in the arm lead's last block
  dirLead : Bool := true           -- direction set as arm lead
  band : Nat := 0                  -- band as arm lead
  sWin : Nat := 0
  nWin : Nat := 0
  lateSpread : Option Nat := none  -- spread of the last cycle whose BAND is still to run, mV
  winLen : Nat := 0                -- limits in force in the running window
  winMin : Nat := 0
  winMax : Nat := 0
  winLim : Nat := 0
  bandSet : Bool := false          -- mod.band_mv written since the running window began (R49)
  bandMode : Nat := 0
  own : Option KeyBlock := none    -- own block of this cycle
  mq : Int := 0                    -- m_q16
  n : Nat := 0
  f : Nat := 0
  neg : Bool := false
  nUse : Nat := 0
  nFb : Nat := 0
  vSum : Nat := 0                  -- mV
  sat : Bool := false
  dir : Bool := true               -- dir_k of the cycle
  warned : Bool := false
  lossUp : Bool := false           -- REDUNDANCY_LOST in force
  lastRetire : Option Nat := none  -- start of the last retirement in the arm, own time
  blockAll : Bool := false         -- as if each record carried BLOCK (R249)
  deriving DecidableEq, Repr

/-! ## Twins (chapter 9) -/

/-- A DRONE block (Table 09-2). `role` is 1 HOLDER, 2 STANDBY, 3 SYNC. -/
structure Drone where
  cycle : Nat
  twinB : Bool
  role : Nat
  rel : Bool
  ready : Bool
  full : Bool
  tOk : Bool
  hbOk : Bool
  epoch : Nat
  lease : Nat
  relCycle : Nat
  digest : BitVec 64
  cfgDigest : BitVec 64
  mism : Nat
  reeds : Nat
  rNeed : Nat
  eCell : Nat
  deriving DecidableEq, Repr

/-- An HB frame (Table 09-3). -/
structure HbFrame where
  twinB : Bool
  role : Nat
  rel : Bool
  ready : Bool
  full : Bool
  cycle : Nat                      -- 32 bits
  epoch : Nat
  lease : Nat                      -- 16 bits
  digest : BitVec 32
  ok : Bool := true                -- CRC and framing are correct
  deriving DecidableEq, Repr

/-- A health report (Table 09-5). -/
structure HealthReport where
  cycle : Nat := 0
  state : Nat := 0
  stage : Nat := 0
  twinB : Bool := false
  full : Bool := false
  paths : Nat := 0
  fwMajor : Nat := 0
  reasons : Nat := 0
  reeds : Nat := 0
  rNeed : Nat := 0
  ports : Nat := 0
  stPass : Nat := 0
  stFail : Nat := 0
  lanes : Nat := 0
  tmax : Nat := 0
  epoch : Nat := 0
  mism : Nat := 0
  fwMinor : Nat := 0
  pairMinor : Nat := 0
  deriving DecidableEq, Repr

/-- What a twin-agreed change says of a cell (R304). -/
inductive TwinChangeKind where
  | fail                           -- the cell fails (R75)
  | portRetired                    -- a port retirement (R127)
  | predictive (on : Bool)         -- the health criterion is met, or no longer (R76)
  deriving DecidableEq, Repr

/-- A twin-agreed change: the cell's port, and the apply cycle. -/
structure TwinChange where
  port : Nat
  kind : TwinChangeKind
  apply : Nat
  deriving DecidableEq, Repr

/-- A REF_REC block (Table 08-7): one control cycle's records, u0 and du_q8 by arm. -/
structure RefBlock where
  c0 : Nat
  nc : Nat
  present : Nat
  cmds : List Nat
  vals : List (Int × Int)
  deriving DecidableEq, Repr

/-- An arm measurement record (Table 06-2). -/
structure ArmMeas where
  cycle : Nat
  arm : Nat
  ok : Bool
  sat : Bool
  red : Bool
  iNext : Int                      -- mA
  vSum : Nat                       -- 10 mV
  nUse : Nat
  nFb : Nat
  band : Nat
  deriving DecidableEq, Repr
/-- A change that the converter lead applies at an apply cycle agreed with its twin (R229, R478). Parameter elements are
keyed id × 65,536 + index. -/
inductive CtlBody where
  | source (host : Bool)
  | setpoint (ch : Nat) (target : F32)
  | ident (apply : Bool)
  | params (vals : List (Nat × Int)) (gains : Bool)
  | conv (target : Nat)
  | test (m : Nat)
  deriving DecidableEq, Repr

/-- What the twin sends under R229: a forwarded change with its apply cycle, or the acknowledgement of one. -/
inductive TwinApply where
  | change (b : CtlBody) (apply : Nat)
  | ack (b : CtlBody) (apply : Nat)
  deriving DecidableEq, Repr

/-! ## Tasks (chapter 7) -/

/-- Task kinds with an instance number: a group, an arm, or 0. -/
inductive Task where
  | pk4 (g : Nat) | kb (a : Nat) | dly4 (g : Nat) | cap4 (g : Nat) | count (a : Nat) | rank4 (g : Nat)
  | armrec (a : Nat) | build4 (g : Nat) | band (a : Nat) | digest | law (n : Nat) | recBlock (n : Nat)
  deriving DecidableEq, Repr


/-! ## Fabric -/

/-- The identity a HELLO block carries (Table 08-4). Ports are numbered 0 E, 1 W, 2 T, 3 U. -/
structure Ident where
  addr : Nat
  twinB : Bool
  seg : Nat
  arm : Nat
  port : Nat
  lane : Nat                -- lane index within the port, 0 or 1
  rate : Nat                -- 0 = 12.5, 1 = 6.25, 2 = 3.125 Gbit/s
  version : Nat
  deriving DecidableEq, Repr

/-- A LINK_STATE block (R281): the link of a port of a device of the ring, its width in lanes (0 down, 1 half, 2 full),
and the apply cycle. -/
structure LinkChange where
  seg : Nat
  port : Nat
  width : Nat
  apply : Nat
  deriving DecidableEq, Repr

/-- A device of the converter, by its address and its first member (arm, segment index, twin letter), with the hop counts
to it by first port E, W or U over links that are up, and over the twin (R278, R551). -/
structure Route where
  dest : Nat
  arm : Nat
  seg : Nat
  twinB : Bool
  e : Option Nat
  w : Option Nat
  u : Option Nat
  viaTwin : Bool
  deriving DecidableEq, Repr

/-- A DELAY block (R274): the TBC at which its marker left, and at which the last DELAY marker of the partner arrived,
in units of 2^−16 tick. -/
structure DelayMsg where
  tTx : Nat
  tLast : Option Nat
  deriving DecidableEq, Repr

/-- The ways in which a block is bad (R290). -/
inductive BadBlock where
  | crc | marker | reservedKind | misplaced
  deriving DecidableEq, Repr

/-- LANE_CMD (Table 08-5). -/
inductive LaneCmd where
  | down | retrain | idleReq | restored
  deriving DecidableEq, Repr

/-! ## The control laws' state (chapter 6) -/

/-- A second-order generalised integrator for each of two axes (R199). -/
structure Sogi where
  ya : F32 := 0
  qa : F32 := 0
  yb : F32 := 0
  qb : F32 := 0
  deriving DecidableEq, Repr

/-- A pair of components: α and β, or d and q. -/
structure Vec where
  x : F32 := 0
  y : F32 := 0
  deriving DecidableEq, Repr

/-- A value of each phase. -/
structure Ph where
  a : F32 := 0
  b : F32 := 0
  c : F32 := 0
  deriving DecidableEq, Repr

/-- A profile channel (R212 to R214). -/
structure Profile where
  active : Bool := false
  target : F32 := 0
  x : F32 := 0
  v : F32 := 0
  a : F32 := 0
  soft : Bool := false
  devRun : Nat := 0                -- consecutive outer cycles beyond ctl.prof_rebase
  deriving DecidableEq, Repr

/-- What the laws carry from one control cycle to the next. PI integrators and offsets are keyed 4 × instance + phase
or axis (Table 06-4). -/
structure LawState where
  pi : Tab F32 := []
  ofs : Tab F32 := []
  udcf : F32 := 0
  th : F32 := 0                    -- PLL angle for the next control cycle
  thP : F32 := 0                   -- angle at t_kj, of the PLL or the flux
  w : F32 := 0
  su : Sogi := {}                  -- grid voltage
  si : Sogi := {}                  -- AC current
  eq : F32 := 0
  umag : F32 := 0
  psi : Vec := {}
  thO : F32 := 0
  wO : F32 := 0
  obsValid : Bool := false
  thE : F32 := 0
  wE : F32 := 0
  wM : F32 := 0
  vab : Vec := {}                  -- voltage commanded for the last control cycle
  up : Vec := {}                   -- positive- and negative-sequence grid voltage, d and q
  un : Vec := {}
  ip : Vec := {}
  im : Vec := {}
  ref : Vec := {}                  -- i_d*, i_q* after R202
  dq : Vec := {}                   -- and as the outer loops left them
  vp : Vec := {}
  vn : Vec := {}
  wx : Ph := {}
  iz : Ph := {}
  izRef : Ph := {}
  izDc : Ph := {}
  izAc : Ph := {}
  pDelta : Ph := {}
  pSum : F32 := 0
  iDc : F32 := 0
  iDcRef : F32 := 0
  pm : F32 := 0
  qm : F32 := 0
  eHist : List (List F32) := []    -- arm energies of the last outer cycles, newest first
  eSum : F32 := 0
  ePh : Ph := {}
  eDl : Ph := {}
  r1 : Ph := {}
  r2 : Ph := {}
  satV : Bool := false
  clamped : Nat := 0               -- arms clamped in the last run (R211)
  holdD : Bool := false            -- hold flags of R202
  holdQ : Bool := false
  holdPi : Nat := 0                -- hold flags of instances 10, 11 and 12, by bit 0, 1 + phase, 4 + phase
  lambda : F32 := 0
  cmPhase : F32 := 0               -- common-mode wave, in periods
  cmOn : Bool := false
  cmHz : F32 := 0
  cmV : F32 := 0
  vcm : F32 := 0
  prof : Tab Profile := []
  u : List F32 := []               -- arm references at the start of c0
  iArm : List F32 := []
  deriving DecidableEq, Repr


/-! ## What the twins say to each other (chapter 9) -/

/-- S(c) of R324: the snapshot cycle, the cell records, the retirement state, the arm state, the overrun counters and the
control state. -/
structure Carried where
  c : Nat
  cells : Tab CellRec
  retCells : Nat
  dlyRef : Tab Int
  arms : Tab ArmState
  cellOvr : Nat
  lawOvr : Nat
  laws : LawState
  deriving DecidableEq, Repr

/-- A TWIN_CMD unit of R304 or R324: a twin-agreed change or its acknowledgement, the request for a snapshot, the snapshot
cycle that the holder names. -/
inductive TwinCmd where
  | change (c : TwinChange)
  | changeAck (c : TwinChange)
  | snapRequest
  | snapCycle (c : Nat)
  deriving DecidableEq, Repr
/-! ## Recorder (chapter 11) -/

/-- A TRIGGER block (Table 11-6). -/
structure TrigMsg where
  src : Nat
  hops : Nat
  late : Bool
  forced : Bool
  recId : Nat
  cause : Nat
  gen : Nat
  cycle : Nat
  tick : Nat
  tickF : Nat
  deriving DecidableEq, Repr

/-! ## Modes (chapter 15) -/

/-- A state unit (R476, R481): the new converter state or test mode by its code, the apply cycle and the cause mask. -/
structure StateMsg where
  conv : Option Nat
  test : Option Nat
  apply : Nat
  cause : Nat
  deriving DecidableEq, Repr

/-- An acknowledgement (R478): device address, members as arm, segment index and twin letter, power state and cause mask;
with it what the lead's further refusals need: whether the device's control time is valid (R341), whether its links fit
(R263, R298, R300), and the values that must be equal (DESIGN CHOICE, log entry 53). -/
structure AckMsg where
  addr : Nat
  members : List (Nat × Nat × Bool)
  power : Nat
  causes : Nat
  ctValid : Bool
  cfgOk : Bool
  params : List (List Int)         -- what the devices must share, by who must share it (R21, R84, R129, R230, R327, R551)
  apply : Nat
  deriving DecidableEq, Repr

/-- A block request (R479): source, cause bit and cycle of detection. -/
structure BlockMsg where
  src : Nat
  bit : Nat
  kr : Nat
  deriving DecidableEq, Repr


/-! ## MESSAGE and BULK units -/

/-- The content of a MESSAGE or BULK unit after its route header: typed where the manual gives the content and no byte
layout. -/
inductive FabBody where
  | bytes (b : List Byte)
  | mbxCommand (qp : Nat) (level : Level) (d : Desc)
  | mbxReply (qp tag : Nat) (r : CmdResult)
  | twinApply (u : TwinApply)              -- TWIN_CMD (R229)
  | twinCmd (u : TwinCmd)                  -- TWIN_CMD (R304, R324)
  | snapshot (x : Carried)                 -- S(c) as TWIN_CMD units (R324)
  | health (r : HealthReport)              -- TWIN_CMD (R317)
  | timeRelay (m : TimeMsg)                -- TWIN_CMD (R336)
  | params (vals : List (Nat × Int))       -- PARAM (R323)
  | stateUnit (m : StateMsg)               -- EVENT (R478)
  | acknowledge (a : AckMsg)
  | cancel (apply cause : Nat)
  | blockReq (m : BlockMsg)                -- EVENT (R479)
  deriving DecidableEq, Repr

/-- A MESSAGE or BULK unit (R271). `dest` is none for a broadcast; `len` includes the route header. -/
structure FabUnit where
  bulk : Bool
  kind : Nat
  dest : Option Nat
  src : Nat
  hops : Nat
  id : Nat
  len : Nat
  body : FabBody
  deriving DecidableEq, Repr

/-! ## The commands -/

/-- The commands, one per row of the opcode table, in its order. -/
inductive Instr where
  /-- POWER_UP (R489): VIN_CORE enters its operating range and the PMU powers the domains up in the fixed order, releasing each domain's clamps. -/
  | powerUp (t : Nat)
  /-- VIN_CORE_UNDERVOLTAGE (R489): VIN_CORE stays below 0.90 V for 1 µs, so the PMU isolates every domain except PD0 and PD1 and switches them off in reverse order. -/
  | vinCoreUndervoltage (t : Nat)
  /-- ROOT_PLL_LOCK (R329): The root PLL locks after reset, and the TBC starts counting from 0. -/
  | rootPllLock (t : Nat)
  /-- REFCLK_FAULT (R29): REFCLK leaves 25 MHz ±2 % or the root PLL reports loss of lock; downlink transmission stops within 2 µs and a fatal fault is raised. -/
  | refclkFault (t : Nat)
  /-- RESET_L_ASSERT (R527): RESET_L has been low for 1 µs; any journal commit in progress finishes and the device then resets. -/
  | resetLAssert (t : Nat) (withPwrfail : Bool)
  /-- RESET_L_RELEASE (R442): RESET_L is released with the rails in range; the boot ROM samples the straps and loads, verifies and starts the firmware image. -/
  | resetLRelease (t : Nat) (b : BootInputs)
  /-- BOOT_OPERATIONAL (R443): Boot completes: the mailboxes are served, lane and cell-port bring-up start, and EV_SYS_BOOT is raised. -/
  | bootOperational (t : Nat)
  /-- BOOT_TIMEOUT (R443): The device is not operational 2.0 s after release of RESET_L; it raises EV_SYS_BOOT_FAIL and serves no cells. -/
  | bootTimeout (t : Nat)
  /-- PWRFAIL_ASSERT (R471): PWRFAIL_L has been low for 1 µs; the device stops fetching, raises EV_SYS_PWRFAIL and starts the final commit. -/
  | pwrfailAssert (t : Nat)
  /-- FINAL_COMMIT_DONE (R471): The final journal commit, including the state block and the commit record, finishes writing. -/
  | finalCommitDone (t : Nat) (works : Bool)
  /-- PWRFAIL_RELEASE (R471): PWRFAIL_L has stayed released for 10 ms without undervoltage; fetching resumes and EV_SYS_PWRFAIL_CLEARED is raised. -/
  | pwrfailRelease (t : Nat)
  /-- JOURNAL_COMMIT (R460): After sys.journal_ms, or when 256 entries are uncommitted, the device commits the journal buffer, the last tags and a commit record to CS1. -/
  | journalCommit (t : Nat) (works : Bool)
  /-- FATAL_FAULT (R468): A fatal cause occurs; within 2 µs the device stops frames, key blocks, drones and lease renewal, raises EV_SYS_FATAL and starts the cast. -/
  | fatalFault (t : Nat) (cause arg : Nat)
  /-- CORE_WATCHDOG_EXPIRY (R468): A control core has had no watchdog service for 10 ms, which is fatal cause 0x03. -/
  | coreWatchdogExpiry (t : Nat) (core : Nat)
  /-- CAST_WRITE_DONE (R469): The cast engine finishes copying the cast and its summary; the device then restarts or halts as sys.fatal_restart states. -/
  | castWriteDone (t : Nat) (b : BootInputs)
  /-- SRAM_CORRECTED_ERROR (R466): An SRAM single-bit error is corrected and counted per memory. -/
  | sramCorrectedError (t : Nat) (mem : SramMem)
  /-- SRAM_DOUBLE_ERROR (R466): A double-bit SRAM error retires a reed, discards items or samples, stops chains, or is fatal, depending on the memory. -/
  | sramDoubleError (t : Nat) (mem : SramMem)
  /-- DRAM_ERROR (R463): A DRAM error adds to the page's leaky bucket, and an uncorrectable error or a full bucket maps the page out. -/
  | dramError (t : Nat) (page : Nat) (corrected : Bool) (user : DramUser)
  /-- DRAM_PAGE_DECAY (R463): Each second, the leaky bucket of every DRAM page is reduced by 1. -/
  | dramPageDecay (t : Nat)
  /-- DRAM_SCRUB (R464): The DDR controller scrubs the whole DRAM once every 24 h. -/
  | dramScrub (t : Nat)
  /-- TAMPER_SOURCE (R455): The security monitor detects a tamper or glitch source and raises the alarm level given for it. -/
  | tamperSource (t : Nat) (row : Nat) (present : Bool)
  /-- CHALLENGE_EXPIRY (R454): A debug-unlock challenge expires 60 s after it was issued. -/
  | challengeExpiry (t : Nat)
  /-- SAFETY_STARTUP_TEST_DONE (R420): A safety channel passes its start-up test and may then release its block request. -/
  | safetyStartupTestDone (t : Nat) (ch : Chan) (cfg : Nat) (pass : Bool)
  /-- SAFETY_INPUT_CHANGE (R419): A SIN, SRST or SAFECFG pin changes level at a channel's receiver and starts that channel's filter. -/
  | safetyInputChange (t : Nat) (ch : Chan) (pin : SafePin) (high : Bool)
  /-- INPUT_FILTER_ACCEPT (R426): A level has held for the sealed filter time, and the channel accepts it. -/
  | inputFilterAccept (t : Nat) (ch : Chan) (pin : SafePin)
  /-- SAFETY_BLOCK_FRAME_START (R94): After a block request, each cell port ends the frame in serialisation and starts a CTRL NOP with sb = 1. -/
  | safetyBlockFrameStart (t : Nat) (port : Nat)
  /-- DISCREPANCY_LATCH (R428): Channel A has timed a pair disagreement for T_disc and latches SAFE_FAULT with cause 0x01. -/
  | discrepancyLatch (t : Nat) (pair : Nat)
  /-- CHANNEL_B_DISCREPANCY (R428): Channel B sees a disagreement outlast 1.06 × T_disc + 0.2 ms without a latch by channel A and enters SAFE_FAULT with cause 0x0A. -/
  | channelBDiscrepancy (t : Nat) (pair : Nat)
  /-- SRST_STUCK (R431): An SRST assertion held beyond 5 s is ignored and EV_SAFE_RESET_STUCK is raised. -/
  | srstStuck (t : Nat) (ch : Chan) (b : Bool)
  /-- WARM_RESTART (R432): With MANUAL_WARM, after t_filt without demand and with the external device open, the device enters NORMAL. -/
  | warmRestart (t : Nat)
  /-- EDM_TIMEOUT (R434): SIN7 does not show the external device open within T_disc of the trip; SAFE_FAULT with cause 0x02 is entered. -/
  | edmTimeout (t : Nat)
  /-- READBACK_FAULT (R435): A SOUT read-back mismatch lasts 100 µs, or a test pulse is not followed, and SAFE_FAULT with cause 0x03 is entered. -/
  | readbackFault (t : Nat) (output : Nat) (b : Bool)
  /-- SOUT_TEST_PULSE (R435): In TESTED mode, once per second, each output commanded high is driven low for 200 µs. -/
  | soutTestPulse (t : Nat) (output : Nat) (b : Bool) (followed : Bool)
  /-- HOLD_ESTABLISH (R436): After 10 ms in SAFE with the hold requested and the conditions met, the maintenance hold is established and SOUT2 goes high. -/
  | holdEstablish (t : Nat)
  /-- SAFECFG_REREAD (R423): Every 1 ms each channel rereads SAFECFG and enters SAFE_FAULT with cause 0x05 after three readings that differ from the seal. -/
  | safecfgReread (t : Nat) (ch : Chan) (cfg : Nat)
  /-- CROSS_MONITOR_EXCHANGE (R437): Every 10 µs the channels exchange their states and judge silence or disagreement (cause 0x0A). -/
  | crossMonitorExchange (t : Nat) (aHeard bHeard : Bool)
  /-- LOCKSTEP_MISMATCH (R437): Channel B's lockstep comparator detects a mismatch and sets its block request (cause 0x08). -/
  | lockstepMismatch (t : Nat)
  /-- CLOCK_CROSS_CHECK_FAIL (R437): PER and the ISO disagree beyond ±8 % for 2 ms (cause 0x0B). -/
  | clockCrossCheckFail (t : Nat) (perKHz isoKHz : Nat)
  /-- BLOCK_READBACK_CHECK (R437): 10 µs after a block request, channel A checks item 0 bit 2 on every port in RUN and forces fill on a failing port. -/
  | blockReadbackCheck (t : Nat)
  /-- BACKGROUND_MARCH (R437): Channel B completes its background ROM CRC and RAM march, and a failure is cause 0x09. -/
  | backgroundMarch (t : Nat) (pass : Bool)
  /-- MODULATION_CYCLE_START (R241): At t_k the cycle sequencer snapshots the sample table, forms the critical pool, applies boundary changes and dispatches the tasks of cycle k. -/
  | modulationCycleStart (t : Nat) (k : Nat)
  /-- PK4_TASK (R42): A group's prediction and key task computes v_pred, the hold time and the keys of up to four cells. -/
  | pk4Task (t : Nat) (g : Nat)
  /-- KB_TASK (R51): The key-block task assembles the own key block of an arm and sends it on the arm ring. -/
  | kbTask (t : Nat) (arm : Nat)
  /-- DLY4_TASK (R69): The delay task updates the delay estimates of its cells from the measured edges. -/
  | dly4Task (t : Nat) (g : Nat)
  /-- CAP4_TASK (R45): The capacitance task updates c.cap of its cells from completed insertion intervals. -/
  | cap4Task (t : Nat) (g : Nat)
  /-- KEY_BLOCK_RECEIVE (R279): A KEY unit arrives and is counted for the cycle, and forwarded cut-through within its reach. -/
  | keyBlockReceive (t : Nat) (lane : Nat) (b : KeyBlock) (crcOk : Bool)
  /-- KEY_EXCHANGE_DEADLINE (R54): At t_kx, blocks missing from the own ring are taken from the twin's copies. -/
  | keyExchangeDeadline (t : Nat) (arm : Nat)
  /-- TWIN_FILL_DEADLINE (R55): At t_kx + 0.15 µs, still-missing blocks are substituted or the segment is treated as unseen, and the blocks count as gathered. -/
  | twinFillDeadline (t : Nat) (arm : Nat)
  /-- COUNT_TASK (R58): The count task computes the arm totals, m_q16, N, f and the usable counts from the gathered blocks. -/
  | countTask (t : Nat) (arm : Nat)
  /-- RANK4_TASK (R59): The rank task ranks each own cell in the total order and marks the whole and fractional cells. -/
  | rank4Task (t : Nat) (g : Nat)
  /-- ARMREC_TASK (R194): In the last cycle of a control cycle, the arm lead builds and sends the arm measurement record. -/
  | armrecTask (t : Nat) (arm : Nat)
  /-- BUILD4_TASK (R63): The build task builds the command frames of its cells with execute-at instants and hands them to the cell ports. -/
  | build4Task (t : Nat) (g : Nat)
  /-- BAND_TASK (R49): The arm lead adapts the hysteresis band over its window and publishes it. -/
  | bandTask (t : Nat) (arm : Nat)
  /-- DIGEST_TASK (R314): The digest task computes the CRC-64 output digest of the cycle for the twin. -/
  | digestTask (t : Nat)
  /-- LAW_TASK (R189): A control-law task on the converter lead runs its part of the laws of the control cycle. -/
  | lawTask (t : Nat) (n : Nat)
  /-- REC_TASK (R358): A recorder task forms reductions and sets and copies samples toward DRAM. -/
  | recTask (t : Nat) (n lost : Nat)
  /-- REED_STEAL (R243): A reed with nothing ready in its own deque steals up to half the ready tasks of the first victim with work. -/
  | reedSteal (t : Nat) (reed n : Nat)
  /-- COMMAND_DEADLINE (R246): At t_cmd the device judges whether cycle k overran. -/
  | commandDeadline (t : Nat)
  /-- FALLBACK_GENERATOR_FRAME (R248): At t_k + 1.5 µs, or after the frame in serialisation, the hardware fallback generator sends a CMD1 with s1 = BLK on each port. -/
  | fallbackGeneratorFrame (t : Nat) (port : Nat)
  /-- CTRL_FRAME_SEND (R93): A CTRL frame, NOP when nothing is pending, starts so that every port starts a frame at least every 2 µs. -/
  | ctrlFrameSend (t : Nat) (port : Nat)
  /-- TASK_WATCHDOG (R245): A task runs beyond four times its cost bound and is stopped by the sequencer's watchdog. -/
  | taskWatchdog (t : Nat) (reed : Nat) (x : Task)
  /-- SELFTEST_SLOT (R254): Every 10 ms the self-test rotation finishes one reed and starts the next, moving its role to a reserve reed. -/
  | selftestSlot (t : Nat) (pass : Bool)
  /-- UPLINK_DATA_FRAME (R104): A valid uplink data frame arrives; the device updates L, the good count, the status items and the cell-head state. -/
  | uplinkDataFrame (t : Nat) (port arr : Nat) (line : List Bool)
  /-- UPLINK_RESP_FRAME (R97): A RESP frame arrives with a register value or result code for a CTRL operation. -/
  | uplinkRespFrame (t : Nat) (port arr dataArr : Nat) (line : List Bool)
  /-- UPLINK_FRAME_INVALID (R122): An uplink frame with a CRC or framing error counts as bad in the port's bucket. -/
  | uplinkFrameInvalid (t : Nat) (u : UpLine)
  /-- UPLINK_FRAME_MISSING (R122): No data frame arrives at its expected epoch ±8 ns; it counts as bad. -/
  | uplinkFrameMissing (t : Nat) (port : Nat)
  /-- PORT_RETIRE_FILL (R126): One second after retirement, the retired port's downlink switches to fill only. -/
  | portRetireFill (t : Nat) (port : Nat)
  /-- PORT_STAGE_EXIT (R106): A bring-up stage meets its exit condition and the port moves to the next stage. -/
  | portStageExit (t : Nat) (port : Nat)
  /-- PORT_STAGE_TIMEOUT (R106): A bring-up stage misses its timeout and the port restarts at LOCK. -/
  | portStageTimeout (t : Nat) (port : Nat)
  /-- RETRAIN_TIMEOUT (R124): A retrain does not reach RUN within 2 ms and counts as failed. -/
  | retrainTimeout (t : Nat) (port : Nat)
  /-- PHASE_TRACK_STEP (R104): At most once per 100 µs, φ moves one 0.25 ns step so that t_down follows L. -/
  | phaseTrackStep (t : Nat) (port : Nat)
  /-- PORT_REALIGN (R104): Once BYP has executed, SYNC_EPOCH and SYNC_CYCLE are repeated and the cell is usable again after 16 clean cycles. -/
  | portRealign (t : Nat) (port : Nat)
  /-- HEALTH_WARN_PERSIST (R76): A cell-head health warning held continuously for 10 s meets the predictive criterion. -/
  | healthWarnPersist (t : Nat) (port : Nat)
  /-- BYPASS_UNCONFIRMED (R78): BYPASSED is not reported within 50 ms of the first fire command; the cell counts as lost. -/
  | bypassUnconfirmed (t : Nat) (port : Nat)
  /-- CELL_BLOCK_RELEASE (R133): At n + 4.0 µs the input block of epoch n is released to the CV and CT chains, and their outputs are written. -/
  | cellBlockRelease (t : Nat) (epoch : Nat)
  /-- REF_BLOCK_RELEASE (R133): At n + 0.5 µs the input block of epoch n is released to the REF chains. -/
  | refBlockRelease (t : Nat) (epoch : Nat) (rmd : List (BitVec 50))
  /-- STREAM_PERM (R165): A stream faulty for meas.perm_ms, or with 8 entries in 10 s, is declared permanently faulty. -/
  | streamPerm (t : Nat) (ch : Nat)
  /-- BANK_SWAP_START (R146): At the first output boundary at or after c_start, the slot is placed in the inactive bank and a fade or direct swap starts. -/
  | bankSwapStart (t : Nat) (ch : Nat)
  /-- REPAIR_REQUEST_SEND (R135): At n + 3.4 µs a frame absent or invalid causes a repair request to the twin. -/
  | repairRequestSend (t : Nat) (epoch : Nat)
  /-- REPAIR_DEADLINE (R135): At n + 3.9 µs unanswered ports are substituted and EV_MEAS_REPAIR_FAIL is raised. -/
  | repairDeadline (t : Nat) (epoch : Nat)
  /-- SAR_CONVERSION_END (R170): A SAR conversion completes and its redundant bit is checked and its result corrected. -/
  | sarConversionEnd (t : Nat) (adc : Nat) (raw : Int) (checkOk : Bool)
  /-- SAR_PASS_START (R175): A PACED sequencer starts a pass at a multiple of sar.seq_period_ns. -/
  | sarPassStart (t : Nat) (n : Nat)
  /-- SAR_PASS_END (R183): A pass ends and the sequencer pushes its item to its queue. -/
  | sarPassEnd (t : Nat) (n : Nat)
  /-- SAR_REF_SETTLED (R178): 1 ms after a reference change, the sequencers restart at slot 0. -/
  | sarRefSettled (t : Nat)
  /-- SAR_CAL_COMPLETE (R180): The N calibration conversions end; ZERO or FULL coefficients are stored and the sequencer restarts. -/
  | sarCalComplete (t : Nat) (adc : Nat)
  /-- WANT_RECEIVE (R285): A WANT block names segments whose KEY units the twin relays over port T. -/
  | wantReceive (t : Nat) (lane : Nat) (masks : List Nat)
  /-- REF_REC_RECEIVE (R287): A REF_REC block is stored for its arm and relayed along the ring, the spine and to the twin. -/
  | refRecReceive (t : Nat) (lane : Nat) (b : RefBlock)
  /-- ARM_REC_RECEIVE (R287): An ARM_REC block is forwarded toward the converter lead or taken by it. -/
  | armRecReceive (t : Nat) (lane : Nat) (r : ArmMeas)
  /-- DRONE_RECEIVE (R306): A DRONE block on port T updates L_exp, the twin's role and the digest. -/
  | droneReceive (t : Nat) (lane : Nat) (b : Drone)
  /-- HB_FRAME_RECEIVE (R312): An HB frame on HB_RX updates the lease and the path state as a drone. -/
  | hbFrameReceive (t : Nat) (f : HbFrame)
  /-- REF_FWD_RECEIVE (R141): The standby receives a forwarded RMD block from the holder. -/
  | refFwdReceive (t : Nat) (lane epoch m : Nat) (bits : BitVec 50)
  /-- REPAIR_REQ_RECEIVE (R288): The twin answers a repair request with data blocks or an absence block. -/
  | repairReqReceive (t : Nat) (lane low mask : Nat)
  /-- REPAIR_DATA_RECEIVE (R135): A repair copy or absence notice is taken for release or substitution. -/
  | repairDataReceive (t : Nat) (lane low : Nat) (r : RepairData)
  /-- TIME_BLOCK_SEND (R334): After the key window, a TIME block goes on each port E, W and U that is UP. -/
  | timeBlockSend (t : Nat) (port frac : Nat)
  /-- TIME_BLOCK_RECEIVE (R335): A TIME block gives a control-time candidate with its path bound. -/
  | timeBlockReceive (t : Nat) (lane : Nat) (tRx : Nat) (m : TimeMsg)
  /-- SOURCE_LOSS_TIMEOUT (R340): Without a source for time.root_loss_cyc cycles, control time becomes invalid. -/
  | sourceLossTimeout (t : Nat)
  /-- ROOT_LISTEN_EXPIRY (R345): The configured root hears no candidate in its listen time and establishes control time at zero. -/
  | rootListenExpiry (t : Nat)
  /-- ROOT_CLAIM (R346): An arm-lead holder without a current candidate for (m + 1) × time.root_loss_cyc claims the root role. -/
  | rootClaim (t : Nat)
  /-- CT_WRAP_NEAR (R344): Once per day while the cycle number exceeds 2^47, the root raises EV_TIME_CT_WRAP_NEAR. -/
  | ctWrapNear (t : Nat)
  /-- TIME_RELAY_SEND (R336): Every 100 µs a device sends its twin a time-relay TWIN_CMD unit. -/
  | timeRelaySend (t : Nat)
  /-- TIME_RELAY_RECEIVE (R336): A time relay from the twin forms a candidate over port T. -/
  | timeRelayReceive (t : Nat) (tRx : Nat) (m : TimeMsg)
  /-- PTP_SYNC_RECEIVE (R352): A PTP measurement updates wall time by step, slew or the step policy. -/
  | ptpSyncReceive (t : Nat) (port1 : Bool) (offset : Int) (rate : Int) (path : Nat)
  /-- ANNOUNCE_RECEIVE (R354): An Announce is taken by the best master clock algorithm, which may change the grandmaster. -/
  | announceReceive (t : Nat) (port1 : Bool) (best : BitVec 64) (portNumber removed : Nat)
  /-- ANNOUNCE_TIMEOUT (R354): No Announce within announceReceiptTimeout; wall time runs in holdover. -/
  | announceTimeout (t : Nat)
  /-- HOLDOVER_LIMIT (R354): After time.holdover_max_s without a master, wall time becomes invalid. -/
  | holdoverLimit (t : Nat)
  /-- HELLO_RECEIVE (R265): A partner's identity is checked against the topology, and a miswire holds the lane in HELLO. -/
  | helloReceive (t : Nat) (lane : Nat) (ident : Ident)
  /-- DELAY_BLOCK_SEND (R274): At least once per millisecond each lane sends a DELAY block. -/
  | delayBlockSend (t : Nat) (lane frac : Nat)
  /-- DELAY_BLOCK_RECEIVE (R274): A DELAY block yields the one-way link delay. -/
  | delayBlockReceive (t : Nat) (lane tRx : Nat) (m : DelayMsg)
  /-- LINK_STATE_RECEIVE (R281): A LINK_STATE block is flooded on, routes are recomputed and a plan change is scheduled. -/
  | linkStateReceive (t : Nat) (lane : Nat) (change : LinkChange) (routes : List Route)
  /-- ACK_RECEIVE (R277): An ACK or NAK releases or retransmits unacknowledged MESSAGE and BULK blocks. -/
  | ackReceive (t : Nat) (port seq : Nat) (nak : Bool)
  /-- ACK_TIMEOUT (R277): 20 µs without an ACK makes the sender retransmit from the first unacknowledged block. -/
  | ackTimeout (t : Nat) (port : Nat)
  /-- LANE_CMD_RETRAIN (R273): LANE_CMD RETRAIN, or a loss of lock, starts a fast retrain. -/
  | laneCmdRetrain (t : Nat) (lane : Nat)
  /-- LANE_CMD_DOWN (R291): LANE_CMD DOWN makes the transmitter stop using the lost lane, and the port runs at half width. -/
  | laneCmdDown (t : Nat) (lane : Nat)
  /-- LANE_CMD_IDLE_REQ (R275): The partner's IDLE_REQ is taken before the lane enters electrical idle. -/
  | laneCmdIdleReq (t : Nat) (lane : Nat)
  /-- FABRIC_BAD_BLOCK (R290): A bad block adds to the lane's bucket and may retrain or retire the lane. -/
  | fabricBadBlock (t : Nat) (lane : Nat) (kind : BadBlock)
  /-- LANE_LOCK_LOSS (R273): A lane in UP loses clock recovery while signal energy is present and sends RETRAIN. -/
  | laneLockLoss (t : Nat) (lane : Nat)
  /-- LANE_SIGNAL_DETECT (R272): Signal energy on the receive pair ends DETECT or wakes the lane from electrical idle. -/
  | laneSignalDetect (t : Nat) (lane : Nat)
  /-- LANE_STAGE_EXIT (R272): A lane bring-up stage meets its exit condition. -/
  | laneStageExit (t : Nat) (lane : Nat) (inverted : Bool)
  /-- LANE_STAGE_TIMEOUT (R272): A lane bring-up stage misses its timeout and the lane restarts at DETECT. -/
  | laneStageTimeout (t : Nat) (lane : Nat)
  /-- FAST_RETRAIN_TIMEOUT (R273): A fast retrain not done within 5 µs falls back to a full bring-up. -/
  | fastRetrainTimeout (t : Nat) (lane : Nat)
  /-- RETRAIN_FAIL_TIMEOUT (R273): The lane is not in UP within 3 ms of the loss; EV_FAB_RETRAIN_FAIL is raised. -/
  | retrainFailTimeout (t : Nat) (lane : Nat)
  /-- LINK_BRINGUP_TIMEOUT (R293): No lane of an enabled port reaches UP within 3 ms; the link is down and LINK_STATE is flooded. -/
  | linkBringupTimeout (t : Nat) (port : Nat)
  /-- LANE_IDLE_TIMER (R275): In DE-ENERGISED, after fab.idle_us of only elastic blocks, the lane sends IDLE_REQ and enters electrical idle. -/
  | laneIdleTimer (t : Nat) (lane : Nat)
  /-- ELASTIC_BLOCK_RECEIVE (R269): At an elastic block the receiver removes or repeats pad words, and a buffer slip retrains the lane. -/
  | elasticBlockReceive (t : Nat) (lane : Nat) (skip : Bool) (pads : Nat) (fill : Int) (slip : Bool)
  /-- SKIP_SEND (R269): After 4,096 other blocks, deferred outside a key window, the transmitter sends a SKIP block. -/
  | skipSend (t : Nat) (lane : Nat)
  /-- FREQ_ESTIMATE (R270): Each second the partner's frequency offset is estimated, warned about or retrained on. -/
  | freqEstimate (t : Nat) (lane : Nat)
  /-- MESSAGE_UNIT_RECEIVE (R278): A MESSAGE or BULK unit is routed on the fewest hops or delivered once. -/
  | messageUnitReceive (t : Nat) (lane seq : Nat) (u : FabUnit)
  /-- TUNNEL_COMMAND_RECEIVE (R387): A destination executes a tunnelled descriptor under the gateway's privilege and returns its completion. -/
  | tunnelCommandReceive (t : Nat) (gw qp level : Nat) (d : Desc)
  /-- TUNNEL_REPLY_RECEIVE (R387): The gateway writes a tunnelled completion to the host's CQ, or discards a late one. -/
  | tunnelReplyReceive (t : Nat) (qp tag dev : Nat) (r : CmdResult)
  /-- TUNNEL_TIMEOUT (R389): No tunnel reply within the bound; the command completes with TIMEOUT. -/
  | tunnelTimeout (t : Nat) (qp tag : Nat)
  /-- TWIN_CMD_RECEIVE (R304): A twin-agreed change names a cell and an apply cycle, and is acknowledged. -/
  | twinCmdReceive (t : Nat) (u : TwinCmd)
  /-- HEALTH_REPORT_SEND (R317): Every 10 ms, and within one cycle of a change, the health report is sent to the twin. -/
  | healthReportSend (t : Nat)
  /-- HEALTH_REPORT_RECEIVE (R317): The twin's health report is stored and shown in the DUP registers. -/
  | healthReportReceive (t : Nat) (r : HealthReport)
  /-- PARAM_UNIT_RECEIVE (R323): A joining standby takes the holder's committed set, commits it and restarts its join. -/
  | paramUnitReceive (t : Nat) (vals : List (Nat × Int))
  /-- TWIN_APPLY_RECEIVE (R229): A forwarded command's apply cycle is received from the twin and acknowledged. -/
  | twinApplyReceive (t : Nat) (u : TwinApply)
  /-- TWIN_APPLY_TIMEOUT (R229): Without the twin's acknowledgement by the boundary, the command completes with TWIN_TIMEOUT. -/
  | twinApplyTimeout (t : Nat)
  /-- STATE_UNIT_RECEIVE (R476): A state unit schedules a new converter state or test mode at its apply cycle, and the device acknowledges. -/
  | stateUnitReceive (t : Nat) (m : StateMsg)
  /-- ACKNOWLEDGEMENT_RECEIVE (R478): A lead twin records a member's acknowledgement with its power state and cause mask. -/
  | acknowledgementReceive (t : Nat) (a : AckMsg)
  /-- CANCEL_UNIT_RECEIVE (R478): A cancel unit withdraws a pending converter transition. -/
  | cancelUnitReceive (t : Nat) (apply cause : Nat)
  /-- BLOCK_REQUEST_RECEIVE (R479): A lead twin receives a block request with its cause and detection cycle. -/
  | blockRequestReceive (t : Nat) (m : BlockMsg)
  /-- BLOCK_REQUEST_SEND (R479): A device with a block cause in force sends a block request to both lead twins and repeats it every 1 ms. -/
  | blockRequestSend (t : Nat)
  /-- CONV_STATE_DECIDE (R478): At t_ca − 5 µs the lead applies the transition at c_a or sends a cancel unit naming the first failing member. -/
  | convStateDecide (t : Nat)
  /-- TRIGGER_BLOCK_RECEIVE (R376): A fabric TRIGGER block is forwarded once per pair and fires FABRIC units. -/
  | triggerBlockReceive (t : Nat) (lane : Nat) (m : TrigMsg)
  /-- JOIN_TIMEOUT (R322): The join wait, shortened after a BOOT report, expires and the device claims under R310. -/
  | joinTimeout (t : Nat)
  /-- SNAPSHOT_COMPLETE (R324): The standby has received all of S(c), installs it in a shadow and starts replay. -/
  | snapshotComplete (t : Nat) (x : Carried)
  /-- SYNC_WINDOW_EXPIRY (R325): The replayed state is not current within dup.sync_window; the transfer restarts, or stops after three failures. -/
  | syncWindowExpiry (t : Nat)
  /-- LAW_SNAPSHOT (R190): At t_kj + 2.0 µs the converter lead snapshots the inputs and starts the law tasks of control cycle j. -/
  | lawSnapshot (t : Nat)
  /-- FEEDBACK_HOLD_EXPIRY (R221): The hold timer reaches ctl.fb_hold_us without recovery; FAULT_BLOCKED is requested. -/
  | feedbackHoldExpiry (t : Nat)
  /-- FOLLOWING_ERROR (R222): An error beyond ctl.fe_emax for ctl.fe_t_ms raises EV_CTL_FOLLOWING and may block. -/
  | followingError (t : Nat) (ch : Nat)
  /-- LAW_SEND_DEADLINE (R191): At t_kj + T_ctl − 2.5 µs the lead sends the records, or a continuation or nothing on an overrun. -/
  | lawSendDeadline (t : Nat)
  /-- IDENT_END (R226): Identification ends with L_arm and new gains, or fails. -/
  | identEnd (t : Nat)
  /-- RECORD_SLOT_DECISION (R365): The recorder decides a 40 ns slot L_align after its end, starting a record on qualified fires. -/
  | recordSlotDecision (t : Nat)
  /-- RECORD_COMPLETE (R368): A record's post-trigger window ends and the record is complete in DRAM. -/
  | recordComplete (t : Nat)
  /-- BUS_PULSE_SEND (R374): A driver sends the trigger-bus pulse at t_trig + rec.bus_ofs_ns, or late. -/
  | busPulseSend (t : Nat) (line : Nat)
  /-- BUS_EDGE_RECEIVE (R375): A trigger-bus pulse is timed and classed as glitch, valid or late. -/
  | busEdgeReceive (t : Nat) (line width rx : Nat)
  /-- QUEUE_PUSH_END (R410): An item's end-of-item word is written and the item is enqueued, or dropped at full. -/
  | queuePushEnd (t : Nat) (q prod : Nat) (payload : List Byte)
  /-- QUEUE_POP (R411): A consumer pops an item in WAIT or TRY mode, freeing its granules. -/
  | queuePop (t : Nat) (q : Nat) (wait : Bool)
  /-- WAIT_POP_COMPLETE (R411): A stalled WAIT pop completes one cycle after an item arrives. -/
  | waitPopComplete (t : Nat) (q : Nat)
  /-- PRODUCER_STALL_RESUME (R412): A stalled reed or firmware producer continues once the queue has room. -/
  | producerStallResume (t : Nat) (q prod : Nat)
  /-- FC_IN_CHANGE (R415): FC_IN held for 2 PER cycles pauses or resumes the queues mapped to it. -/
  | fcInChange (t : Nat) (n : Nat) (high : Bool)
  /-- DESCRIPTOR_FETCH (R396): The device fetches an available descriptor within the in-flight limits, checks it and starts the command. -/
  | descriptorFetch (t : Nat) (qp : Nat) (d : Desc) (dmaOk : Bool)
  /-- COMPLETION_WRITE (R392): A completion is written at the CQ tail once an entry is free, with the phase bit. -/
  | completionWrite (t : Nat) (gw : Option Nat) (qp : Nat) (dmaOk : Bool)
  /-- INTERRUPT_SIGNAL (R393): The queue pair's vector is signalled on the completion count or the delay timer. -/
  | interruptSignal (t : Nat) (qp : Nat)
  /-- PCIE_RESET (R383): A function-level, hot or link-down reset disables the PCIe function and its queue pairs. -/
  | pcieReset (t : Nat)
  /-- TLS_HANDSHAKE_DONE (R385): A mutual TLS handshake completes and the session binds to a free Ethernet queue pair, or is refused. -/
  | tlsHandshakeDone (t : Nat) (port1 : Bool) (role : Level) (remote : Nat)
  /-- TLS_HANDSHAKE_FAIL (R384): A handshake or certificate check fails; the connection closes with EV_MBX_TLS_FAIL. -/
  | tlsHandshakeFail (t : Nat)
  /-- SESSION_FRAME_RECEIVE (R386): A DESC frame in a session supplies a descriptor, and a bad frame closes the session. -/
  | sessionFrameReceive (t : Nat) (sess : Nat) (f : SessFrame)
  /-- PING_RECEIVE (R385): A PING is answered by PONG. -/
  | pingReceive (t : Nat) (sess : Nat)
  /-- SESSION_IDLE_TIMEOUT (R384): A session without records for sys.mbx_idle_s closes. -/
  | sessionIdleTimeout (t : Nat) (sess : Nat)
  /-- SESSION_CLOSE (R386): A session closes; its commands run on with completions discarded. -/
  | sessionClose (t : Nat) (sess : Nat)
  /-- SQ_TAIL_WRITE (R392): A write of SQ_TAIL makes SQ entries available for fetch. -/
  | sqTailWrite (t : Nat) (qp : Nat) (v : Word)
  /-- CQ_HEAD_WRITE (R392): A write of CQ_HEAD releases CQ entries to the device. -/
  | cqHeadWrite (t : Nat) (qp : Nat) (v : Word)
  /-- QP_ENABLE (R391): Setting CFG.enable resets the ring indices and the phase and starts fetching. -/
  | qpEnable (t : Nat) (qp : Nat) (v : Word)
  /-- QP_DISABLE (R391): Clearing CFG.enable stops fetching at once while commands in flight complete. -/
  | qpDisable (t : Nat) (qp : Nat) (v : Word)
  /-- WAKE_WRITE (R487): A write of 1 to SYS.WAKE is a wake source. -/
  | wakeWrite (t : Nat)
  /-- EVT_ACK_WRITE (R504): A write of MBX.EVT_ACK equal to EVT_SEQ quiets vector 8. -/
  | evtAckWrite (t : Nat) (v : Word)
  /-- TBC_LO_READ (R331): A read of TIME.TBC_LO latches the TBC and both time views with their flags. -/
  | tbcLoRead (t : Nat)
  /-- CHRES_LO_READ (R185): A read of SAR.CHRES_LO latches the matching CHRES_HI. -/
  | chresLoRead (t : Nat) (ch : Nat)
  /-- HEALTH_REGISTER_LATCH_READ (R508): A read of DUP.OWN[0] or TWIN[0] latches the other seven registers of that report. -/
  | healthRegisterLatchRead (t : Nat) (twin : Bool)
  /-- PAIR_LO_READ (R497): A host read of a _LO register latches the _HI of the same value. -/
  | pairLoRead (t : Nat) (addr : Nat)
  /-- RC_FIELD_READ (R496): A host read of an RC field returns and clears it. -/
  | rcFieldRead (t : Nat) (addr : Nat)
  /-- REGISTER_WRITE (R495): A host write to a register without a row of its own sets writable fields, and discards and counts the others. -/
  | registerWrite (t : Nat) (addr : Nat) (v : Word)
  /-- BAR_INVALID_ACCESS (R382): An unaligned or out-of-block BAR0 access reads all ones or is discarded and counted. -/
  | barInvalidAccess (t : Nat) (addr : Nat) (write : Bool)
  /-- NOP (R402): Command NOP completes with no effect. -/
  | nop (t : Nat) (c : CmdRef)
  /-- DEV_INFO (R402): Command returning part, stepping, firmware, address, twin state and roles. -/
  | devInfo (t : Nat) (c : CmdRef)
  /-- EVENT_READ (R460): Command returning entries of the event log. -/
  | eventRead (t : Nat) (c : CmdRef) (first count : Nat)
  /-- JOURNAL_READ (R462): Command returning bytes of the journal memory. -/
  | journalRead (t : Nat) (c : CmdRef) (offset length : Nat)
  /-- HEALTH_READ (R511): Command returning entries of a health array. -/
  | healthRead (t : Nat) (c : CmdRef) (array first count : Nat)
  /-- CONV_STATE (R478): Command to the converter lead requesting a converter state transition. -/
  | convState (t : Nat) (c : CmdRef) (target : Nat)
  /-- MODE_POWER (R486): Command requesting a power state within a latency tolerance. -/
  | modePower (t : Nat) (c : CmdRef) (target latency : Nat)
  /-- MODE_TEST (R481): Command setting the converter's test mode. -/
  | modeTest (t : Nat) (c : CmdRef) (m : Nat)
  /-- SELFTEST_COMPLETE (R481): The SELFTEST tests finish and EV_MODE_SELFTEST_DONE carries the pass mask. -/
  | selftestComplete (t : Nat) (passMask : Nat)
  /-- SYS_RESET (R499): Command resetting the device WARM or FULL after writing its completion. -/
  | sysReset (t : Nat) (c : CmdRef) (full : Bool) (b : BootInputs)
  /-- PARAM_GET (R404): Command returning parameter elements from the active, pending or committed set. -/
  | paramGet (t : Nat) (c : CmdRef) (id index count type source : Nat)
  /-- PARAM_SET (R405): Command writing checked values into the pending set. -/
  | paramSet (t : Nat) (c : CmdRef) (id index count type : Nat) (values : List Byte)
  /-- PARAM_COMMIT (R406): Command validating, storing and applying the pending set. -/
  | paramCommit (t : Nat) (c : CmdRef)
  /-- PARAM_DISCARD (R402): Command clearing the pending set. -/
  | paramDiscard (t : Nat) (c : CmdRef)
  /-- PARAM_LOCK (R407): Command setting CONFIG_LOCK when the pending set is empty. -/
  | paramLock (t : Nat) (c : CmdRef)
  /-- PARAM_LIST (R408): Command returning parameter descriptors in ascending ID order. -/
  | paramList (t : Nat) (c : CmdRef) (first count : Nat)
  /-- CELL_RETIRE (R75): Command making a named cell fail and be retired. -/
  | cellRetire (t : Nat) (c : CmdRef) (arm seg port : Nat)
  /-- CELL_RESTORE (R79): Command returning a retired cell or port in DE-ENERGISED. -/
  | cellRestore (t : Nat) (c : CmdRef) (arm seg port : Nat)
  /-- MEAS_COEF_LOAD (R145): Command loading a coefficient set into slots 16 to 255. -/
  | measCoefLoad (t : Nat) (c : CmdRef) (slot : Nat) (words : List Word)
  /-- MEAS_BANK_SWAP (R146): Command requesting a bank swap or fade of a chain to a slot. -/
  | measBankSwap (t : Nat) (c : CmdRef) (ch slot start : Nat)
  /-- MEAS_SYNC (R157): Command requesting a synchronising reset of chains at c_start. -/
  | measSync (t : Nat) (c : CmdRef) (mask start : Nat)
  /-- SAR_CAL (R179): Command starting a ZERO or FULL system calibration of an AIN channel. -/
  | sarCal (t : Nat) (c : CmdRef) (adc ch gain : Nat) (full : Bool) (target : Int)
  /-- CTL_SOURCE (R217): Command changing the control source with a handover. -/
  | ctlSource (t : Nat) (c : CmdRef) (host : Bool)
  /-- CTL_SETPOINT (R213): Command changing the target of a profile channel. -/
  | ctlSetpoint (t : Nat) (c : CmdRef) (ch : Nat) (target : F32)
  /-- CTL_REF_PUSH (R215): Command pushing host arm reference records. -/
  | ctlRefPush (t : Nat) (c : CmdRef) (recs : List RefRec)
  /-- CTL_IDENT (R225): Command starting arm-inductance identification. -/
  | ctlIdent (t : Nat) (c : CmdRef) (apply : Bool)
  /-- CYC_REED_RESTORE (R259): Command self-testing a retired reed and returning it to scheduling. -/
  | cycReedRestore (t : Nat) (c : CmdRef) (reed : Nat) (pass : Bool)
  /-- FAB_LANE_RESTORE (R290): Command bringing up a retired lane in full. -/
  | fabLaneRestore (t : Nat) (c : CmdRef) (lane : Nat)
  /-- DUP_HANDOVER (R320): Command moving the lease to a READY standby at an apply cycle. -/
  | dupHandover (t : Nat) (c : CmdRef)
  /-- DUP_RESYNC (R325): Command restarting state transfer on a standby. -/
  | dupResync (t : Nat) (c : CmdRef)
  /-- TIME_WALL_STEP (R353): Command applying a pending wall-time step. -/
  | timeWallStep (t : Nat) (c : CmdRef)
  /-- REC_ARM (R369): Command arming the recorder SINGLE or AUTO after size checks. -/
  | recArm (t : Nat) (c : CmdRef) (mode : Nat)
  /-- REC_DISARM (R372): Command disarming the recorder with FINISH or ABORT. -/
  | recDisarm (t : Nat) (c : CmdRef) (mode : Nat)
  /-- REC_FORCE (R367): Command starting a forced record in the first undecided slot. -/
  | recForce (t : Nat) (c : CmdRef)
  /-- REC_READ (R378): Command returning bytes of a complete record image. -/
  | recRead (t : Nat) (c : CmdRef) (id offset length : Nat)
  /-- REC_RELEASE (R378): Command returning a record's segments to the pool. -/
  | recRelease (t : Nat) (c : CmdRef) (id : Nat)
  /-- REC_LIST (R379): Command listing up to 64 records. -/
  | recList (t : Nat) (c : CmdRef) (first count : Nat)
  /-- QUE_INFO (R414): Command returning a queue's totals, flags and counters. -/
  | queInfo (t : Nat) (c : CmdRef) (q : Nat)
  /-- QUE_POP (R414): Command popping items from a queue to the host. -/
  | quePop (t : Nat) (c : CmdRef) (q items bufLen : Nat)
  /-- QUE_PUSH (R414): Command pushing host items into a queue. -/
  | quePush (t : Nat) (c : CmdRef) (q count : Nat) (data : List Byte)
  /-- QUE_FLUSH (R413): Command flushing a queue in one queue-manager cycle. -/
  | queFlush (t : Nat) (c : CmdRef) (q : Nat)
  /-- SAFE_STATUS (R441): Command returning the safety mirror. -/
  | safeStatus (t : Nat) (c : CmdRef)
  /-- FW_STAGE (R447): Command writing image bytes into the DRAM staging area. -/
  | fwStage (t : Nat) (c : CmdRef) (offset : Nat) (data : List Byte)
  /-- FW_VERIFY (R446): Command verifying the staged image and writing it to the inactive slot. -/
  | fwVerify (t : Nat) (c : CmdRef)
  /-- FW_ACTIVATE (R447): Command naming the verified slot in the slot record and restarting, or programming an owner key. -/
  | fwActivate (t : Nat) (c : CmdRef) (b : BootInputs)
  /-- SEC_ATTEST (R453): Command returning a signed attestation report. -/
  | secAttest (t : Nat) (c : CmdRef) (nonce : BitVec 256)
  /-- SEC_IDENTITY (R452): Command returning the identity and intermediate certificates. -/
  | secIdentity (t : Nat) (c : CmdRef)
  /-- SEC_ALARM_CLEAR (R457): Command lowering the security alarm level. -/
  | secAlarmClear (t : Nat) (c : CmdRef) (level : Nat)
  /-- CAST_READ (R470): Command returning bytes of a cast slot. -/
  | castRead (t : Nat) (c : CmdRef) (slot offset length : Nat)
  /-- CAST_CLEAR (R470): Command emptying both cast slots. -/
  | castClear (t : Nat) (c : CmdRef)
  /-- DBG_UNLOCK (R454): Command issuing a challenge or accepting a signed answer to open debug or clear the lock. -/
  | dbgUnlock (t : Nat) (c : CmdRef) (answer : Option UnlockAnswer)
  /-- WAKE_SOURCE (R487): A wake source from REST or IDLE starts the wake sequence. -/
  | wakeSource (t : Nat) (src : WakeSource)
  /-- WAKE_COMPLETE (R487): The wake sequence ends in IDLE, or IDLE to RUN completes. -/
  | wakeComplete (t : Nat)
  /-- REST_TIMER_EXPIRY (R487): mode.rest_timer_s expires in REST and wakes the device. -/
  | restTimerExpiry (t : Nat)
  /-- PMBUS_POLL (R490): The PMBus master polls the external regulators and reports warnings, faults or losses. -/
  | pmbusPoll (t : Nat) (reg : Nat) (answer : Option PmbRead)
  /-- DOMAIN_FAULT (R491): A domain difference above 60 mV engages its clamps and applies the domain's consequence. -/
  | domainFault (t : Nat) (dom : Nat) (diff : Int)
  /-- DOMAIN_RESTORE (R491): After 1 ms at or below 40 mV the clamps release and automatic domains return. -/
  | domainRestore (t : Nat) (dom : Nat)
  /-- VIN_CORE_LOSS (R489): VIN_CORE falls below 0.80 V, so PD0 and PD1 stop, and both safety channels, their latched states and the retention SRAM are lost. -/
  | vinCoreLoss (t : Nat)
  /-- PORT_RECEIVER_LOCK_LOSS (R124): The CRX receiver of a cell port loses lock, so the port goes down, EV_LINK_DOWN is raised and a retrain starts. -/
  | portReceiverLockLoss (t : Nat) (port : Nat)
  /-- ACK_SEND (R277): The receiver's 2 µs ACK interval runs out and it returns an ACK for the MESSAGE and BULK blocks received on the link. -/
  | ackSend (t : Nat) (port : Nat)
  /-- IO_RAILS_IN_RANGE (R527): With RESET_L already released, the last of VIN_CORE and the I/O rails comes into range, and the device leaves reset and starts boot. -/
  | ioRailsInRange (t : Nat) (b : BootInputs)
  deriving DecidableEq, Repr

end Sys2Proof
end

