-- ==== Sys2Proof/Machine/Events.lean ====
section
/-!
DEFINITION. Machine/Events.lean: the event codes of the chapters' event tables and their severities (R12, R549, Table 14-17).
-/
namespace Sys2Proof.Machine

/-! Event codes 0xSSCC (R12), by their names in the event tables. -/
namespace Ev
/-- Operational, with source, slot and boot count (R443). -/
abbrev SYS_BOOT : Nat := 0x0101
/-- Other slot booted (R444). -/
abbrev SYS_BOOT_FALLBACK : Nat := 0x0102
/-- Boot not completed (R442, R443). -/
abbrev SYS_BOOT_FAIL : Nat := 0x0103
/-- Configuration copy incorrect (R445). -/
abbrev SYS_CFG_COPY_BAD : Nat := 0x0104
/-- Fatal fault, with cause (R468). -/
abbrev SYS_FATAL : Nat := 0x0105
/-- Cast complete, with slot (R469). -/
abbrev SYS_CAST_WRITTEN : Nat := 0x0106
/-- PWRFAIL_L accepted (R471). -/
abbrev SYS_PWRFAIL : Nat := 0x0107
/-- Warning withdrawn (R471). -/
abbrev SYS_PWRFAIL_CLEARED : Nat := 0x0108
/-- Journal memory failed (R461). -/
abbrev SYS_JOURNAL_FAIL : Nat := 0x0109
/-- Torn commit found at boot (R460). -/
abbrev SYS_JOURNAL_TORN : Nat := 0x010A
/-- Corrected SRAM errors (R466). -/
abbrev SYS_SRAM_CE : Nat := 0x010B
/-- Page mapped out (R465). -/
abbrev SYS_DRAM_PAGE : Nat := 0x010C
/-- Page table full or above 1 % (R465). -/
abbrev SYS_DRAM_DEGRADED : Nat := 0x010D
/-- Queue pair enters the error state (R394). -/
abbrev MBX_QP_ERROR : Nat := 0x0120
/-- Handshake or certificate check failed (R384). -/
abbrev MBX_TLS_FAIL : Nat := 0x0121
/-- Session bound, closed or refused, with reason (R385, R386). -/
abbrev MBX_SESSION : Nat := 0x0122
/-- Tunnelled command completed with TIMEOUT (R389). -/
abbrev MBX_TUNNEL_TIMEOUT : Nat := 0x0123
/-- Invalid BAR0 access (R382). -/
abbrev MBX_BAR_ACCESS : Nat := 0x0124
/-- Port reaches RUN. -/
abbrev LINK_UP : Nat := 0x0201
/-- Port goes down (R124). -/
abbrev LINK_DOWN : Nat := 0x0202
/-- Retrain failed (R124). -/
abbrev LINK_RETRAIN_FAIL : Nat := 0x0203
/-- Port retired (R126). -/
abbrev LINK_PORT_RETIRED : Nat := 0x0204
/-- Capability not accepted (R109). -/
abbrev LINK_CAP_REJECT : Nat := 0x0205
/-- Delay outside the tracking range, or a step (R104). -/
abbrev LINK_DELAY_STEP : Nat := 0x0206
/-- Cell head reports a mismatch (R116). -/
abbrev LINK_MISMATCH : Nat := 0x0207
/-- Cell head reports a dual holder (R116). -/
abbrev LINK_DUAL_HOLDER : Nat := 0x0208
/-- Item 6 increments; logged at most once per 1,000 cycles per port. -/
abbrev LINK_FALLBACK : Nat := 0x0209
/-- Item 7 increments. -/
abbrev LINK_LATE : Nat := 0x020A
/-- Cell head in FAULT_BLOCK, with fault code. -/
abbrev LINK_CH_FAULT : Nat := 0x020B
/-- Cell head in BYPASSED, with fault code. -/
abbrev LINK_CH_BYPASSED : Nat := 0x020C
/-- Health warning set. -/
abbrev LINK_CH_HEALTH : Nat := 0x020D
/-- Standby finds the cell grid more than 4 ns from its control time (Table 03-5). -/
abbrev LINK_ALIGN_DIFF : Nat := 0x020E
/-- Stream stuck (R162). -/
abbrev MEAS_STUCK : Nat := 0x0301
/-- Chain frozen (R164). -/
abbrev MEAS_FROZEN : Nat := 0x0302
/-- Chain overrange (R163). -/
abbrev MEAS_OVERRANGE : Nat := 0x0303
/-- Stage saturated (R142). -/
abbrev MEAS_SATURATED : Nat := 0x0304
/-- Stream permanently faulty (R165). -/
abbrev MEAS_STREAM_PERM : Nat := 0x0305
/-- Block substituted (R136). -/
abbrev MEAS_FRAME_SUBST : Nat := 0x0306
/-- Twin repair not answered in time (R135). -/
abbrev MEAS_REPAIR_FAIL : Nat := 0x0307
/-- Data frame too late for release (R134). -/
abbrev MEAS_PORT_LATE : Nat := 0x0308
/-- Standby left REF follow (R141). -/
abbrev MEAS_FOLLOW_LOST : Nat := 0x0309
/-- Cross-fade complete (R147). -/
abbrev MEAS_BANK_DONE : Nat := 0x030A
/-- Calibration coefficients installed (R180). -/
abbrev SAR_CAL_DONE : Nat := 0x0401
/-- SAR_CAL failed (R181). -/
abbrev SAR_CAL_FAIL : Nat := 0x0402
/-- Reference outside 2 % (R178). -/
abbrev SAR_REF_FAULT : Nat := 0x0403
/-- Converter disabled (R187). -/
abbrev SAR_ADC_DISABLED : Nat := 0x0404
/-- Sequencer 2 list cut to 24 slots (R187). -/
abbrev SAR_SLOTS_CUT : Nat := 0x0405
/-- m_q16 clamped (R58); counted, logged at most once per 1,000 cycles. -/
abbrev MOD_SATURATED : Nat := 0x0501
/-- Missing block replaced by an older one (R55). -/
abbrev MOD_BLOCK_SUBST : Nat := 0x0502
/-- Segment treated as unseen (R55). -/
abbrev MOD_SEG_UNSEEN : Nat := 0x0503
/-- Device self-isolates (R56). -/
abbrev MOD_SEG_ISOLATED : Nat := 0x0504
/-- Reference echo differs (R57). -/
abbrev MOD_REF_MISMATCH : Nat := 0x0505
/-- Delay measurement rejected (R69). -/
abbrev MOD_DLY_REJECT : Nat := 0x0506
/-- Delay estimate clamped (R70). -/
abbrev MOD_DLY_LIMIT : Nat := 0x0507
/-- No edge after a command (R71). -/
abbrev MOD_SWITCH_FAIL : Nat := 0x0508
/-- Edge without a command (R71). -/
abbrev MOD_UNEXPECTED_EDGE : Nat := 0x0509
/-- Cell retired (R78). -/
abbrev MOD_CELL_RETIRED : Nat := 0x050A
/-- Capacitance ratio below the warning level (R46). -/
abbrev MOD_HEALTH_WARN : Nat := 0x050B
/-- BYPASSED not reported within 50 ms (R78). -/
abbrev MOD_BYPASS_UNCONFIRMED : Nat := 0x050C
/-- Usable count near its minimum (R80). -/
abbrev MOD_REDUNDANCY_WARN : Nat := 0x050D
/-- Usable count below its minimum (R80). -/
abbrev MOD_REDUNDANCY_LOST : Nat := 0x050E
/-- Fibre too long for the pipeline (R74). -/
abbrev MOD_PIPELINE_FIBRE : Nat := 0x050F
/-- Open-loop hold exceeded (R44). -/
abbrev MOD_EST_DEGRADED : Nat := 0x0510
/-- Cell capability does not fit the arm mix (R39). -/
abbrev MOD_CELL_MIX : Nat := 0x0511
/-- Law tasks missed the send deadline (R191). -/
abbrev CTL_OVERRUN : Nat := 0x0601
/-- PLL unlocked (R223). -/
abbrev CTL_PLL_UNLOCK : Nat := 0x0602
/-- PLL locked (R200, R223). -/
abbrev CTL_PLL_LOCK : Nat := 0x0603
/-- Input lost (R220, R221). -/
abbrev CTL_FB_LOST : Nat := 0x0604
/-- Input recovered within the hold (R221). -/
abbrev CTL_FB_RESTORED : Nat := 0x0605
/-- Protective block requested (R221). -/
abbrev CTL_FB_BLOCK : Nat := 0x0606
/-- Following error beyond its limit and time (R222). -/
abbrev CTL_FOLLOWING : Nat := 0x0607
/-- Preset clamped or host step ramped (R218, R219). -/
abbrev HANDOVER_CLAMP : Nat := 0x0608
/-- Handover performed (R217). -/
abbrev CTL_HANDOVER : Nat := 0x0609
/-- Soft start from the measured value (R214). -/
abbrev CTL_PROF_REBASE : Nat := 0x060A
/-- Arm current beyond ctl.i_arm_trip_a (R224). -/
abbrev CTL_ARM_OVERCURRENT : Nat := 0x060B
/-- Current reference limited (R202). -/
abbrev CTL_ILIMIT : Nat := 0x060C
/-- Identification complete (R226). -/
abbrev CTL_IDENT_DONE : Nat := 0x060D
/-- Identification failed (R226). -/
abbrev CTL_IDENT_FAIL : Nat := 0x060E
/-- Bandwidth reduced to f_lim (R227). -/
abbrev CTL_GAIN_REDUCED : Nat := 0x060F
/-- Host record missing (R216). -/
abbrev CTL_HOST_REF_GAP : Nat := 0x0610
/-- First overrun, with cause (R247). -/
abbrev CYCLE_OVERRUN : Nat := 0x0701
/-- Segment fault declared (R248). -/
abbrev CYCLE_SEGMENT_FAULT : Nat := 0x0702
/-- Reference missing in two consecutive cycles (R249). -/
abbrev CYCLE_REF_LOST : Nat := 0x0703
/-- Overruns above cyc.overrun_warn in 10 s (R251). -/
abbrev CYCLE_OVERRUN_RATE : Nat := 0x0704
/-- Reed retired (R256). -/
abbrev CYCLE_REED_RETIRED : Nat := 0x0705
/-- Reed failed its self-test (R256). -/
abbrev CYCLE_SELFTEST_FAIL : Nat := 0x0706
/-- Task rerun on another reed (R257). -/
abbrev CYCLE_TASK_RERUN : Nat := 0x0707
/-- Usable reeds below R_need (R253). -/
abbrev CYCLE_CAPACITY_LOW : Nat := 0x0708
/-- Critical pool rebuilt after a domain outage (R258). -/
abbrev CYCLE_POOL_REBUILT : Nat := 0x0709
/-- Lane reaches UP. -/
abbrev FAB_LANE_UP : Nat := 0x0801
/-- Lane leaves UP (R273). -/
abbrev FAB_LANE_DOWN : Nat := 0x0802
/-- Retrain failed (R273). -/
abbrev FAB_RETRAIN_FAIL : Nat := 0x0803
/-- Lane retired (R290). -/
abbrev FAB_LANE_RETIRED : Nat := 0x0804
/-- Port at half width (R291). -/
abbrev FAB_HALF_WIDTH : Nat := 0x0805
/-- Both lanes of a port down (R293). -/
abbrev FAB_LINK_DOWN : Nat := 0x0806
/-- New exchange plan in force (R281). -/
abbrev FAB_PLAN_CHANGE : Nat := 0x0807
/-- Partner offset above 200 ppm (R270). -/
abbrev FAB_FREQ_WARN : Nat := 0x0808
/-- Partner offset above 300 ppm, or elastic-buffer slip (R270). -/
abbrev FAB_CLOCK_MISMATCH : Nat := 0x0809
/-- Partner identity contradicts the topology (R265). -/
abbrev FAB_MISWIRE : Nat := 0x080A
/-- Wanted block not relayed in time (R285). -/
abbrev FAB_WANT_UNMET : Nat := 0x080B
/-- Link delay above its limit (R298). -/
abbrev FAB_LINK_LONG : Nat := 0x080C
/-- Path silent for 3 cycles (R313). -/
abbrev DUP_PATH_FAULT : Nat := 0x0901
/-- Path restored (R313). -/
abbrev DUP_PATH_RESTORED : Nat := 0x0902
/-- Takeover or claim, with new epoch (R307, R310, R318). -/
abbrev DUP_TAKEOVER : Nat := 0x0903
/-- Holder demoted, with reason (R309). -/
abbrev DUP_DEMOTED : Nat := 0x0904
/-- Digests differ (R315). -/
abbrev DUP_DIGEST_MISMATCH : Nat := 0x0905
/-- Stage SYNC entered (R315, R324). -/
abbrev DUP_SYNC_START : Nat := 0x0906
/-- Replayed state installed (R324). -/
abbrev DUP_SYNC_DONE : Nat := 0x0907
/-- Replay not current in time (R325). -/
abbrev DUP_SYNC_FAIL : Nat := 0x0908
/-- Stage READY entered (R316). -/
abbrev DUP_READY : Nat := 0x0909
/-- Stage UNFIT entered, with reasons (R316). -/
abbrev DUP_UNFIT : Nat := 0x090A
/-- Lease expired while in SYNC (R308). -/
abbrev DUP_HOLDER_LOST : Nat := 0x090B
/-- Configuration taken from the holder (R323). -/
abbrev DUP_CFG_COPY : Nat := 0x090C
/-- Twin carries the same letter (R302). -/
abbrev DUP_STRAP : Nat := 0x090D
/-- Epoch raised unconditionally at a cell (R319). -/
abbrev DUP_RAISE_LATE : Nat := 0x090E
/-- Planned handover done (R320). -/
abbrev DUP_HANDOVER : Nat := 0x090F
/-- Control time valid (R340). -/
abbrev TIME_CT_VALID : Nat := 0x0A01
/-- Control time invalid (R340). -/
abbrev TIME_CT_INVALID : Nat := 0x0A02
/-- Message beyond the step threshold, or T mismatch (R335, R339). -/
abbrev TIME_CT_OUTLIER : Nat := 0x0A03
/-- Control time stepped (R339, R344). -/
abbrev TIME_CT_STEP : Nat := 0x0A04
/-- Ring-closure difference above 4 ns (R343). -/
abbrev TIME_ASYM : Nat := 0x0A05
/-- Path bound above 3,000 ps (R342). -/
abbrev TIME_PATH_LONG : Nat := 0x0A06
/-- Root claimed, handed over or returned (R345 to R348). -/
abbrev TIME_ROOT_CHANGE : Nat := 0x0A07
/-- Cycle number above 2^47 (R344). -/
abbrev TIME_CT_WRAP_NEAR : Nat := 0x0A08
/-- Wall time valid from PTP (R352). -/
abbrev TIME_PTP_LOCK : Nat := 0x0A09
/-- Step refused (R353). -/
abbrev TIME_STEP_REFUSED : Nat := 0x0A0A
/-- Holdover entered on a step (R353). -/
abbrev TIME_HOLDOVER : Nat := 0x0A0B
/-- New grandmaster (R354). -/
abbrev TIME_MASTER_CHANGE : Nat := 0x0A0C
/-- Announce timeout (R354). -/
abbrev TIME_MASTER_LOST : Nat := 0x0A0D
/-- Holdover limit reached (R354). -/
abbrev TIME_WALL_INVALID : Nat := 0x0A0E
/-- Own PTP differs from fabric wall time (R349). -/
abbrev TIME_WALL_DIFF : Nat := 0x0A0F
/-- Record decided, with identifier and cause (R366). -/
abbrev REC_TRIGGER : Nat := 0x0B01
/-- Record complete in DRAM. -/
abbrev REC_DONE : Nat := 0x0B02
/-- Re-arm waits for free segments (R371). -/
abbrev REC_FULL : Nat := 0x0B03
/-- Record freed by OVERWRITE (R371). -/
abbrev REC_OVERWRITE : Nat := 0x0B04
/-- Staging overflow (R372). -/
abbrev REC_OVERFLOW : Nat := 0x0B05
/-- Segment lost to a mapped-out page (R372). -/
abbrev REC_PAGE_LOST : Nat := 0x0B06
/-- Bus pulse sent late (R374). -/
abbrev REC_BUS_LATE : Nat := 0x0B07
/-- Item dropped (R412). -/
abbrev QUE_OVERFLOW : Nat := 0x0C01
/-- Watermark flag set (R415). -/
abbrev QUE_HIGH : Nat := 0x0C02
/-- Watermark flag cleared (R415). -/
abbrev QUE_LOW : Nat := 0x0C03
/-- Partial item discarded by a flush (R413). -/
abbrev QUE_FLUSH_TRUNC : Nat := 0x0C04
/-- Free granules below que.pool_low (R416). -/
abbrev QUE_POOL_LOW : Nat := 0x0C05
/-- NORMAL to SAFE, with pair. -/
abbrev SAFE_DEMAND : Nat := 0x0D01
/-- SAFE to NORMAL (R430, R432). -/
abbrev SAFE_RESTART : Nat := 0x0D02
/-- Discrepancy latched (R428). -/
abbrev SAFE_DISCREPANCY : Nat := 0x0D03
/-- SAFE_FAULT entered, with cause. -/
abbrev SAFE_FAULT : Nat := 0x0D04
/-- SRST assertion ignored (R431). -/
abbrev SAFE_RESET_STUCK : Nat := 0x0D05
/-- Edge accepted by one channel only, or refused by a condition of R430. -/
abbrev SAFE_RESET_REJECTED : Nat := 0x0D06
/-- SIN7 not open in time (R434). -/
abbrev SAFE_EDM : Nat := 0x0D07
/-- Output read-back fault (R435). -/
abbrev SAFE_READBACK : Nat := 0x0D08
/-- Sealed configuration changed or invalid (R423). -/
abbrev SAFE_SEAL : Nat := 0x0D09
/-- Hold established or ended (R436). -/
abbrev SAFE_HOLD : Nat := 0x0D0A
/-- Alarm level raised, with source (R455). -/
abbrev SEC_ALARM : Nat := 0x0E01
/-- Level lowered (R457). -/
abbrev SEC_ALARM_CLEARED : Nat := 0x0E02
/-- Image check failed (R446). -/
abbrev SEC_SIG_FAIL : Nat := 0x0E03
/-- sv below the counter (R446). -/
abbrev SEC_ROLLBACK : Nat := 0x0E04
/-- Counter advanced (R449). -/
abbrev SEC_ROLLBACK_ADV : Nat := 0x0E05
/-- Owner key programmed (R451). -/
abbrev SEC_OWNER_SET : Nat := 0x0E06
/-- Debug or lock clear granted (R454). -/
abbrev SEC_UNLOCK : Nat := 0x0E07
/-- Unlock answer wrong (R454). -/
abbrev SEC_UNLOCK_FAIL : Nat := 0x0E08
/-- Converter state changed (R478, R479). -/
abbrev MODE_CONV_STATE : Nat := 0x0F01
/-- Transition cancelled, with device and causes (R478). -/
abbrev MODE_CONV_CANCEL : Nat := 0x0F02
/-- Block request sent, with cause (R479). -/
abbrev MODE_BLOCK_REQ : Nat := 0x0F03
/-- Power state entered (R486, R487). -/
abbrev MODE_POWER : Nat := 0x0F04
/-- Wake, with source (R487). -/
abbrev MODE_WAKE : Nat := 0x0F05
/-- Test mode changed (R481). -/
abbrev MODE_TEST : Nat := 0x0F06
/-- Live cell head found in SIMCELL (R481). -/
abbrev MODE_SIM_LIVE : Nat := 0x0F07
/-- SELFTEST finished, with pass mask (R481). -/
abbrev MODE_SELFTEST_DONE : Nat := 0x0F08
/-- Domain difference above 60 mV (R32, R491). -/
abbrev DOMAIN_VDIFF : Nat := 0x0F09
/-- Clamps released (R491). -/
abbrev MODE_DOMAIN_RESTORED : Nat := 0x0F0A
/-- Regulator warning (R490). -/
abbrev MODE_PMB_WARN : Nat := 0x0F0B
/-- Regulator fault (R490). -/
abbrev MODE_PMB_FAULT : Nat := 0x0F0C
/-- Regulator not answering (R490). -/
abbrev MODE_PMB_LOST : Nat := 0x0F0D
/-- Temperature at warning level (R492). -/
abbrev MODE_TJ_WARN : Nat := 0x0F0E
/-- Temperature trip (R492). -/
abbrev MODE_TJ_TRIP : Nat := 0x0F0F
/-- Sensor spread above 25 °C (R492). -/
abbrev MODE_TGRAD : Nat := 0x0F10
end Ev

/-- Codes of severity 3 FATAL (Table 14-17). -/
def fatalCodes : List Nat := [0x0105]

/-- Codes of severity 2 ERROR (Table 14-17). -/
def errorCodes : List Nat := [0x0103, 0x0109, 0x010C, 0x010D, 0x0204, 0x020B, 0x020C, 0x0305, 0x0404, 0x050A, 0x050C, 0x050E, 0x0606, 0x060B, 0x0702, 0x0703, 0x0705, 0x0706, 0x0804, 0x0806, 0x090B, 0x090D, 0x0A02, 0x0A0E, 0x0D03, 0x0D04, 0x0D07, 0x0D08, 0x0D09, 0x0F09, 0x0F0C, 0x0F0D, 0x0F0F]

/-- Codes of severity 0 INFO (Table 14-17). -/
def infoCodes : List Nat := [0x0101, 0x0106, 0x0108, 0x0122, 0x0201, 0x030A, 0x0401, 0x0603, 0x0605, 0x0609, 0x060D, 0x0801, 0x0807, 0x0902, 0x0903, 0x0906, 0x0907, 0x0909, 0x090C, 0x090F, 0x0A01, 0x0A07, 0x0A09, 0x0A0C, 0x0B01, 0x0B02, 0x0C03, 0x0D02, 0x0D0A, 0x0E02, 0x0E05, 0x0E06, 0x0E07, 0x0F01, 0x0F04, 0x0F05, 0x0F06, 0x0F08, 0x0F0A]

/-- The severity of a code: 3 FATAL, 2 ERROR, 1 WARN, 0 INFO (R549). -/
def severity (code : Nat) : Nat :=
  if fatalCodes.contains code then 3
  else if errorCodes.contains code then 2
  else if infoCodes.contains code then 0
  else 1

end Sys2Proof.Machine
end

