-- ==== Sys2Proof/Config.lean ====
section
/-!
DEFINITION. Config.lean: what an implementation fixes and the values the manual leaves open. Each is a constant
without a body, so no proof can see a value of it (log entries 1 and 2).
-/
namespace Sys2Proof.Config

/-- A value the manual leaves open, drawn by the model's own counter `Dev.openIx` (DESIGN CHOICE, log entry 1). -/
opaque freeValue (w : Nat) : Nat → BitVec w

/-- The mathematical functions of the library of R189 whose results the manual names and does not state bit for bit
(DESIGN CHOICE, log entry 2). -/
opaque fsin : F32 → F32
opaque fcos : F32 → F32
opaque fatan2 : F32 → F32 → F32
opaque fcbrt : F32 → F32
opaque fsqrt : F32 → F32

/-- SHA-384, named in R406, R446, R452 and R454 and not defined there (DESIGN CHOICE, log entry 2). -/
opaque sha384 : List Byte → BitVec 384

/-- The ECDSA signature over a digest with a private key (R452, R453). -/
opaque ecdsaSign (key : Nat) (digest : BitVec 384) : BitVec 768

/-- Whether an ECDSA signature verifies: public key or key name, digest, signature (R446, R451, R454). -/
opaque ecdsaVerify : List Byte → BitVec 384 → BitVec 768 → Bool

/-- The 64 payload bytes of a block whose content the manual names without a layout, by its kind and content (DESIGN CHOICE, log entry
133). -/
opaque blockContent (kind : Nat) (content : List Nat) : BitVec 512

/-- Block `i` of a MESSAGE or BULK unit whose content has no layout, by its source and identifier (DESIGN CHOICE, log entry 133). -/
opaque unitContent (src id i : Nat) : BitVec 512

/-- The link speed of ETH0 or ETH1: 0 1000BASE-X, 1 2.5GBASE-X, 2 10GBASE-R, taken modulo 3. No parameter sets it (DESIGN CHOICE, log
entry 134). -/
opaque ethSpeed (port1 : Bool) : Nat

/-- The place of a LAW, LAG or BACK task in the deferrable pool, by the number of its output slot: the affinity that CC1 gives it
(R233, R243), taken modulo the size of the pool. -/
opaque taskAffinity : Nat → Nat

/-- The queue that the firmware assigns to a SAR sequencer (Table 05-10). -/
opaque sarQueueDefault : Nat → BitVec 10

/-- Coefficient `j` of stage 1 or 2 of a preset set, part of the signed firmware image (R550). The last coefficient of a
stage is not taken from here: it makes the stage's sum 131,072. -/
opaque presetCoef (slot stage j : Nat) : BitVec 18

/-- The fresh challenge of R454, by its number. -/
opaque challenge : Nat → BitVec 384

/-- The DER identity certificate and the intermediate certificate, as the boot flash holds them (R452). -/
opaque identityCerts : List Byte

/-- Whether a section decrypts with its tag under the firmware key of OTP: key, IV, tag, bytes (R446). -/
opaque gcmVerify (key : BitVec 256) (iv : BitVec 96) (tag : BitVec 128) (bytes : List Byte) : Bool

/-- The 64-byte commit record of a journal commit from what the manual has it carry, without a byte layout: the commit sequence
number, the first entry and the number of entries, the tags and the CRC-32 (R460, DESIGN CHOICE, log entry 63). -/
opaque commitRecord (seq first count : Nat) (tags : List Byte) (crc : BitVec 32) : BitVec 512

/-- A byte of the power-fail state block of a final commit, by commit and offset (R471). -/
opaque stateByte : Nat → Nat → Byte

/-- A byte of a cast by its number and offset, for what Table 14-12 names and gives no content: the digest, the section
table and the sections. -/
opaque castByte : Nat → Nat → Byte

/-- Bytes of a cast beyond its 256-byte header, taken within its 16 MB slot. -/
opaque castBody : Nat → BitVec 24

/-- The 50 bits of a stream of a modelled cell in one block, and the modulator's next state, from its state, the cell's
capacitor voltage and the states that the cell executed in the block, each with its time in ticks. The manual names the second-order
modulator and does not state it (R481, DESIGN CHOICE, log entry 69). -/
opaque simStream (state : BitVec 64) (v : F32) (executed : List (Nat × Nat)) : BitVec 50 × BitVec 64

/-- The least que.cap_gran (items = false) and que.cap_items (items = true) of a queue that the firmware function using it
needs (R416, DESIGN CHOICE, log entry 72). -/
opaque queueMin (q : Nat) (items : Bool) : Nat

end Sys2Proof.Config
end

