-- ==== Sys2Proof/Machine/Float.lean ====
section
/-!
DEFINITION. Machine/Float.lean: IEEE 754 arithmetic with round to nearest even and subnormal values kept (R189, R238),
computed exactly on integers and rounded once. `Fmt` gives binary32 and binary64 (R211 evaluates in FP64).
A NaN that an operation yields carries payload bits the manual does not state (DESIGN CHOICE, log entry 3).
-/
namespace Sys2Proof.Machine

/-- A binary format: `p` bits of precision, `w` bits of exponent. -/
structure Fmt where
  p : Nat
  w : Nat
  deriving DecidableEq, Repr

def fmt32 : Fmt := ⟨24, 8⟩
def fmt64 : Fmt := ⟨53, 11⟩

/-- The exponent of the last place of a subnormal value. -/
def Fmt.emin (f : Fmt) : Int := 3 - (f.p : Int) - 2 ^ (f.w - 1)

/-- A value: NaN, infinity, or (−1)^neg × m × 2^e. -/
inductive Fl where
  | nan
  | inf (neg : Bool)
  | fin (neg : Bool) (m : Nat) (e : Int)
  deriving DecidableEq, Repr

/-- The value that `b` encodes. -/
def Fmt.dec (f : Fmt) (b : Nat) : Fl :=
  let fr := b % 2 ^ (f.p - 1)
  let ex := (b >>> (f.p - 1)) % 2 ^ f.w
  let s := b.testBit (f.p + f.w - 1)
  if ex = 2 ^ f.w - 1 then (if fr = 0 then .inf s else .nan)
  else if ex = 0 then .fin s fr f.emin
  else .fin s (fr + 2 ^ (f.p - 1)) (f.emin + (ex : Int) - 1)

/-- The sign bit's weight. -/
def Fmt.signBit (f : Fmt) (neg : Bool) : Nat := if neg then 2 ^ (f.p + f.w - 1) else 0

/-- Infinity's bits. -/
def Fmt.infBits (f : Fmt) (neg : Bool) : Nat := f.signBit neg + (2 ^ f.w - 1) * 2 ^ (f.p - 1)

/-- A quiet NaN's bits; the payload is open (DESIGN CHOICE, log entry 3). -/
def Fmt.nanBits (f : Fmt) : Nat :=
  f.infBits false + 2 ^ (f.p - 2) + (Config.freeValue (f.p - 2) 0).toNat

/-- The bits of (−1)^neg × m × 2^e rounded to nearest, ties to even. -/
def Fmt.enc (f : Fmt) (neg : Bool) (m : Nat) (e : Int) : Nat :=
  if m = 0 then f.signBit neg
  else
    let len := Nat.log2 m + 1
    let eq := max (e + (len : Int) - (f.p : Int)) f.emin
    let q :=
      if eq ≤ e then m <<< (e - eq).toNat
      else
        let sh := (eq - e).toNat
        let q := m >>> sh
        let r := m % 2 ^ sh
        let half := 2 ^ (sh - 1)
        if half < r ∨ (r = half ∧ q % 2 = 1) then q + 1 else q
    if q < 2 ^ (f.p - 1) then f.signBit neg + q
    else
      let (q, eq) := if q = 2 ^ f.p then (2 ^ (f.p - 1), eq + 1) else (q, eq)
      let ex := (eq - f.emin).toNat + 1
      if 2 ^ f.w - 1 ≤ ex then f.infBits neg
      else f.signBit neg + ex * 2 ^ (f.p - 1) + (q - 2 ^ (f.p - 1))

/-- The bits of a value. -/
def Fmt.ofFl (f : Fmt) : Fl → Nat
  | .nan => f.nanBits
  | .inf s => f.infBits s
  | .fin s m e => f.enc s m e

/-- The exact sum of two values. -/
def Fl.add : Fl → Fl → Fl
  | .nan, _ | _, .nan => .nan
  | .inf a, .inf b => if a = b then .inf a else .nan
  | .inf a, _ | _, .inf a => .inf a
  | .fin s m e, .fin t n g =>
    let l := min e g
    let x : Int := (if s then -1 else 1) * ((m <<< (e - l).toNat : Nat) : Int)
    let y : Int := (if t then -1 else 1) * ((n <<< (g - l).toNat : Nat) : Int)
    let z := x + y
    if z = 0 then .fin (s && t) 0 l else .fin (z < 0) z.natAbs l

/-- The exact product of two values. -/
def Fl.mul : Fl → Fl → Fl
  | .nan, _ | _, .nan => .nan
  | .inf a, .inf b => .inf (a != b)
  | .inf a, .fin t n _ | .fin t n _, .inf a => if n = 0 then .nan else .inf (a != t)
  | .fin s m e, .fin t n g => .fin (s != t) (m * n) (e + g)

/-- A quotient with enough bits, and a last bit that keeps it inexact when it is. -/
def Fl.div : Fl → Fl → Fl
  | .nan, _ | _, .nan => .nan
  | .inf _, .inf _ => .nan
  | .inf a, .fin t _ _ => .inf (a != t)
  | .fin s _ e, .inf b => .fin (s != b) 0 e
  | .fin s m e, .fin t n g =>
    if n = 0 then (if m = 0 then .nan else .inf (s != t))
    else
      let k := 120
      let q := (m <<< k) / n
      let r := (m <<< k) % n
      .fin (s != t) (2 * q + (if r = 0 then 0 else 1)) (e - g - (k : Int) - 1)

def Fl.neg : Fl → Fl
  | .nan => .nan
  | .inf s => .inf !s
  | .fin s m e => .fin (!s) m e

/-- x < y by value; false with a NaN. -/
def Fl.lt : Fl → Fl → Bool
  | .nan, _ | _, .nan => false
  | .inf a, .inf b => a && !b
  | .inf a, .fin _ _ _ => a
  | .fin _ _ _, .inf b => !b
  | .fin s m e, .fin t n g =>
    let l := min e g
    let x : Int := (if s then -1 else 1) * ((m <<< (e - l).toNat : Nat) : Int)
    let y : Int := (if t then -1 else 1) * ((n <<< (g - l).toNat : Nat) : Int)
    x < y

/-- x = y by value; false with a NaN. -/
def Fl.eqv (x y : Fl) : Bool := x != .nan && y != .nan && !x.lt y && !y.lt x

/-- The value as floor(x × 2^k), 0 for a NaN or an infinity. -/
def Fl.floorScaled (k : Int) : Fl → Int
  | .fin s m e =>
    let v : Int := if s then -(m : Int) else m
    let sh := e + k
    if 0 ≤ sh then v * 2 ^ sh.toNat else v / 2 ^ (-sh).toNat
  | _ => 0

/-! ## binary32 -/

def f32add (a b : F32) : F32 := BitVec.ofNat 32 (fmt32.ofFl ((fmt32.dec a.toNat).add (fmt32.dec b.toNat)))
def f32neg (a : F32) : F32 := a ^^^ 0x80000000#32
def f32sub (a b : F32) : F32 := f32add a (f32neg b)
def f32mul (a b : F32) : F32 := BitVec.ofNat 32 (fmt32.ofFl ((fmt32.dec a.toNat).mul (fmt32.dec b.toNat)))
def f32div (a b : F32) : F32 := BitVec.ofNat 32 (fmt32.ofFl ((fmt32.dec a.toNat).div (fmt32.dec b.toNat)))
def f32abs (a : F32) : F32 := a &&& 0x7FFFFFFF#32
def f32lt (a b : F32) : Bool := (fmt32.dec a.toNat).lt (fmt32.dec b.toNat)
def f32eq (a b : F32) : Bool := (fmt32.dec a.toNat).eqv (fmt32.dec b.toNat)
def f32le (a b : F32) : Bool := f32lt a b || f32eq a b
def f32gt (a b : F32) : Bool := f32lt b a
def f32isNan (a : F32) : Bool := fmt32.dec a.toNat == .nan
/-- Neither a NaN nor an infinity. -/
def f32finite (a : F32) : Bool := (a.toNat >>> 23) % 256 != 255
def f32min (a b : F32) : F32 := if f32lt b a then b else a
def f32max (a b : F32) : F32 := if f32lt a b then b else a
/-- x held within lo and hi. -/
def f32clamp (x lo hi : F32) : F32 := if f32lt x lo then lo else if f32lt hi x then hi else x

/-- The binary32 nearest to an integer. -/
def f32ofInt (x : Int) : F32 := BitVec.ofNat 32 (fmt32.enc (x < 0) x.natAbs 0)
/-- The binary32 nearest to x × 2^e. -/
def f32scaled (x : Int) (e : Int) : F32 := BitVec.ofNat 32 (fmt32.enc (x < 0) x.natAbs e)
/-- The binary32 nearest to n / d. -/
def f32ofRat (n : Int) (d : Nat) : F32 :=
  BitVec.ofNat 32 (fmt32.ofFl ((Fl.fin (n < 0) n.natAbs 0).div (.fin false d 0)))
/-- floor(x × 2^k). -/
def f32floor (k : Int) (a : F32) : Int := (fmt32.dec a.toNat).floorScaled k
/-- x × 2^k rounded to the nearest integer, half to even. -/
def f32round (k : Int) (a : F32) : Int :=
  let t := (fmt32.dec a.toNat).floorScaled (k + 1)
  let u := (fmt32.dec a.toNat).floorScaled k
  let exact := (fmt32.dec a.toNat).eqv (.fin (t < 0) t.natAbs (-(k + 1)))
  if t % 2 = 0 then u
  else if exact then (if u % 2 = 0 then u else u + 1)
  else u + 1
/-- x × 2^k rounded to the nearest integer, half upwards. -/
def f32roundHalfUp (k : Int) (a : F32) : Int :=
  let t := (fmt32.dec a.toNat).floorScaled (k + 1)
  (t + 1) / 2
/-- x × 2^k with its fraction dropped. -/
def f32trunc (k : Int) (a : F32) : Int :=
  if a.msb then -((fmt32.dec (f32neg a).toNat).floorScaled k) else f32floor k a

def f0 : F32 := 0x00000000#32
def f1 : F32 := 0x3F800000#32
def f2 : F32 := 0x40000000#32
def fHalf : F32 := 0x3F000000#32
/-- The quiet NaN the recorder stores for a sample that is not ok, with its tag byte (R357). -/
def f32NanTag (tag : Nat) : F32 := BitVec.ofNat 32 (0x7FC00000 + tag % 256)

/-! ## binary64 -/

def f64add (a b : BitVec 64) : BitVec 64 := BitVec.ofNat 64 (fmt64.ofFl ((fmt64.dec a.toNat).add (fmt64.dec b.toNat)))
def f64neg (a : BitVec 64) : BitVec 64 := a ^^^ 0x8000000000000000#64
def f64mul (a b : BitVec 64) : BitVec 64 := BitVec.ofNat 64 (fmt64.ofFl ((fmt64.dec a.toNat).mul (fmt64.dec b.toNat)))
def f64div (a b : BitVec 64) : BitVec 64 := BitVec.ofNat 64 (fmt64.ofFl ((fmt64.dec a.toNat).div (fmt64.dec b.toNat)))
/-- A binary32 value as binary64, exact. -/
def f64of32 (a : F32) : BitVec 64 := BitVec.ofNat 64 (fmt64.ofFl (fmt32.dec a.toNat))
/-- A binary64 value rounded to binary32. -/
def f32of64 (a : BitVec 64) : F32 := BitVec.ofNat 32 (fmt32.ofFl (fmt64.dec a.toNat))
def f64floor (k : Int) (a : BitVec 64) : Int := (fmt64.dec a.toNat).floorScaled k

end Sys2Proof.Machine
end

