-- ==== Sys2Proof/Machine/ParamTable.lean ====
section
/-!
DEFINITION. Machine/ParamTable.lean: every firmware parameter the chapters' parameter tables list, with its type, range,
default, element count, the class of its "Takes effect" column and whether it must be equal in both twins.
f32 values are the bits of the binary32 nearest to the decimal of the table.
-/
namespace Sys2Proof.Machine

/-- Parameter types (Table 12-11). -/
inductive ParamType where
  | u8 | u16 | u32 | s8 | s16 | s32 | f32 | enum | bitmap (bits : Nat)
  deriving DecidableEq, Repr

/-- The Range column. -/
inductive ParamRange where
  | ints (lo hi : Int)                 -- lo to hi
  | intsOr (lo hi other : Int)         -- lo to hi, or the one further value
  | steps (lo hi step : Int)           -- lo to hi in steps
  | oneOf (vs : List Int)
  | pow2 (lo hi : Int)                 -- powers of two from lo to hi
  | bits (n : Nat)                     -- any bitmap of n bits
  | u16any | u32any
  | upTo (his : List Int)             -- 0 to the element's own limit
  | slotWord                          -- a host slot word (Table 05-2)
  | fl (lo hi : F32)                   -- lo to hi, by value
  | flPos | flNonneg | flNonzero | flFinite
  deriving DecidableEq, Repr

/-- The Default column. -/
inductive ParamDefault where
  | fill (v : Int)                     -- one value for every element
  | each (vs : List Int)
  | segId                              -- SEG_ID strap (R526)
  | portGroups                         -- all ports of port groups assigned to an arm (Table 03-12)
  | cvct                               -- C0; C3 when link.double_rate is ON (Table 04-13)
  | rmdDelay                           -- 12, 6 at 50 MHz (Table 04-13)
  | sarQueue                           -- assigned by firmware (Table 05-10)
  | safeCfg | safeSeal | safeField (lo w : Nat)   -- as sealed (Table 13-11)
  deriving DecidableEq, Repr

/-- The class of the Takes effect column (R408 codes 0 to 3; the last five are other events: the next outer cycle, CTL_IDENT,
REC_ARM, CONV_STATE and boot). -/
inductive Takes where
  | cycle | control | deEnergised | event | outer | ident | arm | conv | boot
  deriving DecidableEq, Repr

/-- One row of a parameter table. -/
structure ParamDef where
  id : Nat
  name : String
  ty : ParamType
  range : ParamRange
  dflt : ParamDefault
  count : Nat
  takes : Takes
  mustEqual : Bool
  deriving DecidableEq, Repr

/-! Parameter identifiers by name. -/
namespace P
abbrev sys_dev_addr : Nat := 0x1001
abbrev sys_mbx_tls_port : Nat := 0x1020
abbrev sys_mbx_tls_en : Nat := 0x1021
abbrev sys_mbx_idle_s : Nat := 0x1022
abbrev sys_gateway : Nat := 0x1023
abbrev sys_tunnel_to_ms : Nat := 0x1024
abbrev sys_lock_at_boot : Nat := 0x1025
abbrev sys_journal_ms : Nat := 0x1030
abbrev sys_fatal_restart : Nat := 0x1031
abbrev sys_image_serve : Nat := 0x1032
abbrev link_t_ll_us : Nat := 0x2001
abbrev link_t_sb_ms : Nat := 0x2002
abbrev link_double_rate : Nat := 0x2003
abbrev link_asym_ps : Nat := 0x2004
abbrev link_err_limit : Nat := 0x2005
abbrev link_port_enable : Nat := 0x2006
abbrev meas_cv_preset : Nat := 0x3001
abbrev meas_ct_preset : Nat := 0x3002
abbrev meas_cv_slot : Nat := 0x3003
abbrev meas_ct_slot : Nat := 0x3004
abbrev meas_cell_align : Nat := 0x3005
abbrev meas_ref_enable : Nat := 0x3010
abbrev meas_ref_preset : Nat := 0x3011
abbrev meas_ref_slot : Nat := 0x3012
abbrev meas_ref_fs : Nat := 0x3013
abbrev meas_ref_ofs : Nat := 0x3014
abbrev meas_ref_skew_ns : Nat := 0x3015
abbrev meas_ref_dph : Nat := 0x3016
abbrev meas_ref_align : Nat := 0x3017
abbrev meas_ref_follow : Nat := 0x3018
abbrev meas_mclk_rate : Nat := 0x3019
abbrev meas_rmd_dly_tk : Nat := 0x301A
abbrev meas_fade_len : Nat := 0x3020
abbrev meas_ovr_pct : Nat := 0x3021
abbrev meas_frz_win : Nat := 0x3022
abbrev meas_frz_var : Nat := 0x3023
abbrev meas_perm_ms : Nat := 0x3024
abbrev sar_ref_src : Nat := 0x4001
abbrev sar_refin_mv : Nat := 0x4002
abbrev sar_seq_mode : Nat := 0x4010
abbrev sar_seq_period_ns : Nat := 0x4011
abbrev sar_seq_len : Nat := 0x4012
abbrev sar_seq_slot : Nat := 0x4013
abbrev sar_queue : Nat := 0x4014
abbrev sar_gain : Nat := 0x4020
abbrev sar_cal_n : Nat := 0x4030
abbrev sar_cal_ofs : Nat := 0x4040
abbrev sar_cal_k : Nat := 0x4041
abbrev sar_cal_valid : Nat := 0x4042
abbrev mod_cell_mix : Nat := 0x5001
abbrev mod_t_mod_ns : Nat := 0x5002
abbrev mod_depth : Nat := 0x5003
abbrev mod_fibre_max_m : Nat := 0x5004
abbrev mod_frac_mode : Nat := 0x5005
abbrev mod_min_pulse_ns : Nat := 0x5006
abbrev mod_dly_max_ns : Nat := 0x5007
abbrev mod_dly_shift : Nat := 0x5008
abbrev mod_dly_reject_ns : Nat := 0x5009
abbrev mod_dly_imin_a : Nat := 0x500A
abbrev mod_edge_timeout_ns : Nat := 0x500B
abbrev mod_band_mv : Nat := 0x5010
abbrev mod_band_mode : Nat := 0x5011
abbrev mod_band_min_mv : Nat := 0x5012
abbrev mod_band_max_mv : Nat := 0x5013
abbrev mod_spread_lim_mv : Nat := 0x5014
abbrev mod_band_win : Nat := 0x5015
abbrev mod_dir_dead_a : Nat := 0x5016
abbrev mod_iarm_src : Nat := 0x5017
abbrev mod_cap_nom_uf : Nat := 0x5020
abbrev mod_cap_alpha_shift : Nat := 0x5021
abbrev mod_cap_dv_min_mv : Nat := 0x5022
abbrev mod_cap_warn_pct : Nat := 0x5023
abbrev mod_cap_retire_pct : Nat := 0x5024
abbrev mod_dly_drift_ns : Nat := 0x5025
abbrev mod_est_hold_us : Nat := 0x5026
abbrev mod_n_min : Nat := 0x5030
abbrev mod_n_fb_min : Nat := 0x5031
abbrev mod_red_warn : Nat := 0x5032
abbrev mod_red_reserve : Nat := 0x5033
abbrev mod_retire_gap_ms : Nat := 0x5034
abbrev mod_retire_predictive : Nat := 0x5035
abbrev mod_blk_hold : Nat := 0x5036
abbrev mod_pg_segidx : Nat := 0x5037
abbrev mod_pg_arm : Nat := 0x5038
abbrev ctl_app : Nat := 0x6001
abbrev ctl_n_ctl : Nat := 0x6002
abbrev ctl_n_out : Nat := 0x6003
abbrev ctl_src_udc : Nat := 0x6004
abbrev ctl_src_ug : Nat := 0x6005
abbrev ctl_f_nom_hz : Nat := 0x6006
abbrev ctl_ug_nom_v : Nat := 0x6007
abbrev ctl_pll_df_hz : Nat := 0x6008
abbrev ctl_udc_lp_hz : Nat := 0x6009
abbrev ctl_kp : Nat := 0x6010
abbrev ctl_ki : Nat := 0x6011
abbrev ctl_xlim : Nat := 0x6012
abbrev ctl_kr_z : Nat := 0x6013
abbrev ctl_l_arm_uh : Nat := 0x6020
abbrev ctl_l_grid_uh : Nat := 0x6021
abbrev ctl_bw_i_hz : Nat := 0x6022
abbrev ctl_bw_z_hz : Nat := 0x6023
abbrev ctl_i_max_a : Nat := 0x6024
abbrev ctl_i_prio : Nat := 0x6025
abbrev ctl_iz_max_a : Nat := 0x6026
abbrev ctl_w_max_pct : Nat := 0x6027
abbrev ctl_m_max : Nat := 0x6028
abbrev ctl_i_arm_trip_a : Nat := 0x6029
abbrev ctl_d_mode : Nat := 0x6030
abbrev ctl_q_mode : Nat := 0x6031
abbrev ctl_uac_droop : Nat := 0x6032
abbrev ctl_vcell_ref_v : Nat := 0x6040
abbrev ctl_pe_max_w : Nat := 0x6041
abbrev ctl_ma_max : Nat := 0x6042
abbrev ctl_drv_mode : Nat := 0x6050
abbrev ctl_spd_src : Nat := 0x6051
abbrev ctl_tacho_ch : Nat := 0x6052
abbrev ctl_tacho_k : Nat := 0x6053
abbrev ctl_pole_pairs : Nat := 0x6054
abbrev ctl_kt : Nat := 0x6055
abbrev ctl_t_max_nm : Nat := 0x6056
abbrev ctl_id_mag : Nat := 0x6057
abbrev ctl_start_i_a : Nat := 0x6058
abbrev ctl_rs_mohm : Nat := 0x6059
abbrev ctl_l_s_uh : Nat := 0x605A
abbrev ctl_obs_hp_hz : Nat := 0x605B
abbrev ctl_obs_lp_hz : Nat := 0x605C
abbrev ctl_obs_fmin_hz : Nat := 0x605D
abbrev ctl_cm_fmax_hz : Nat := 0x605E
abbrev ctl_cm_hz : Nat := 0x605F
abbrev ctl_cm_v : Nat := 0x6060
abbrev ctl_prof_v : Nat := 0x6070
abbrev ctl_prof_a : Nat := 0x6071
abbrev ctl_prof_j : Nat := 0x6072
abbrev ctl_prof_min : Nat := 0x6073
abbrev ctl_prof_max : Nat := 0x6074
abbrev ctl_prof_rebase : Nat := 0x6075
abbrev ctl_ss_rate : Nat := 0x6076
abbrev ctl_handover_rate : Nat := 0x6080
abbrev ctl_host_step_max_v : Nat := 0x6081
abbrev ctl_fb_react : Nat := 0x6082
abbrev ctl_fb_hold_us : Nat := 0x6083
abbrev ctl_fe_emax : Nat := 0x6084
abbrev ctl_fe_t_ms : Nat := 0x6085
abbrev ctl_fe_react : Nat := 0x6086
abbrev ctl_id_w_v : Nat := 0x6090
abbrev ctl_id_tp_us : Nat := 0x6091
abbrev ctl_id_reps : Nat := 0x6092
abbrev cyc_load_max : Nat := 0x7001
abbrev cyc_reed_reserve : Nat := 0x7002
abbrev cyc_selftest : Nat := 0x7003
abbrev cyc_reed_err_limit : Nat := 0x7004
abbrev cyc_overrun_warn : Nat := 0x7005
abbrev fab_rate : Nat := 0x8001
abbrev fab_port_enable : Nat := 0x8002
abbrev fab_err_limit : Nat := 0x8003
abbrev fab_msg_half_pct : Nat := 0x8004
abbrev fab_bulk_half_pct : Nat := 0x8005
abbrev fab_idle_us : Nat := 0x8006
abbrev dup_mode : Nat := 0x9001
abbrev dup_lease_cycles : Nat := 0x9002
abbrev dup_join_ms : Nat := 0x9003
abbrev dup_dig_limit : Nat := 0x9004
abbrev dup_ready_match : Nat := 0x9005
abbrev dup_sync_window : Nat := 0x9006
abbrev time_root_arm : Nat := 0xA001
abbrev time_root_seg : Nat := 0xA002
abbrev time_link_asym_ps : Nat := 0xA003
abbrev time_ct_step_ns : Nat := 0xA004
abbrev time_ct_slew_ppm : Nat := 0xA005
abbrev time_root_loss_cyc : Nat := 0xA006
abbrev time_policy : Nat := 0xA010
abbrev time_domain_size : Nat := 0xA011
abbrev time_step_limit_ns : Nat := 0xA012
abbrev time_wall_slew_ppm : Nat := 0xA013
abbrev time_holdover_max_s : Nat := 0xA014
abbrev time_wall_check_ns : Nat := 0xA015
abbrev time_ptp_port_en : Nat := 0xA020
abbrev time_ptp_profile : Nat := 0xA021
abbrev time_ptp_transport : Nat := 0xA022
abbrev time_ptp_delay : Nat := 0xA023
abbrev time_ptp_step : Nat := 0xA024
abbrev time_ptp_domain : Nat := 0xA025
abbrev time_ptp_role : Nat := 0xA026
abbrev time_ptp_prio : Nat := 0xA027
abbrev time_ptp_log_sync : Nat := 0xA028
abbrev time_eth_ext_ps : Nat := 0xA029
abbrev rec_ch_src : Nat := 0xB001
abbrev rec_ch_fmt : Nat := 0xB002
abbrev rec_ch_red : Nat := 0xB003
abbrev rec_ch_div : Nat := 0xB004
abbrev rec_set_item : Nat := 0xB005
abbrev rec_set_ports : Nat := 0xB006
abbrev rec_set_op : Nat := 0xB007
abbrev rec_pre_ns : Nat := 0xB010
abbrev rec_post_ns : Nat := 0xB011
abbrev rec_seg_kb : Nat := 0xB012
abbrev rec_pool_mb : Nat := 0xB013
abbrev rec_chain : Nat := 0xB014
abbrev rec_full_mode : Nat := 0xB015
abbrev rec_count : Nat := 0xB016
abbrev rec_ev_lat_us : Nat := 0xB017
abbrev rec_fab_lat_us : Nat := 0xB018
abbrev rec_export_bus : Nat := 0xB019
abbrev rec_export_fab : Nat := 0xB01A
abbrev rec_bus_mode : Nat := 0xB020
abbrev rec_bus_drive : Nat := 0xB021
abbrev rec_bus_dly_ns : Nat := 0xB022
abbrev rec_bus_ofs_ns : Nat := 0xB023
abbrev rec_u_role : Nat := 0xB030
abbrev rec_u_src : Nat := 0xB031
abbrev rec_u_type : Nat := 0xB032
abbrev rec_u_dir : Nat := 0xB033
abbrev rec_u_thr_hi : Nat := 0xB034
abbrev rec_u_thr_lo : Nat := 0xB035
abbrev rec_u_hys : Nat := 0xB036
abbrev rec_u_cmp : Nat := 0xB037
abbrev rec_u_w1 : Nat := 0xB038
abbrev rec_u_w2 : Nat := 0xB039
abbrev rec_u_k : Nat := 0xB03A
abbrev rec_u_ev : Nat := 0xB03B
abbrev rec_u_qual : Nat := 0xB03C
abbrev rec_u_holdoff_us : Nat := 0xB03D
abbrev que_cap_items : Nat := 0xC001
abbrev que_cap_gran : Nat := 0xC002
abbrev que_wm_hi : Nat := 0xC003
abbrev que_wm_lo : Nat := 0xC004
abbrev que_fc_out : Nat := 0xC005
abbrev que_fc_in : Nat := 0xC006
abbrev que_host : Nat := 0xC007
abbrev que_pool_low : Nat := 0xC008
abbrev safe_cfg_raw : Nat := 0xD001
abbrev safe_seal : Nat := 0xD002
abbrev safe_filter_code : Nat := 0xD003
abbrev safe_disc_code : Nat := 0xD004
abbrev safe_restart : Nat := 0xD005
abbrev safe_out_mode : Nat := 0xD006
abbrev safe_fn_enable : Nat := 0xD007
abbrev sec_tamper_erase : Nat := 0xE001
abbrev sec_rollback_auto : Nat := 0xE002
abbrev mode_chg_min_pct : Nat := 0xF001
abbrev mode_deen_max_v : Nat := 0xF002
abbrev mode_fn_enable : Nat := 0xF003
abbrev mode_sim_dly_ns : Nat := 0xF004
abbrev mode_pmb_addr : Nat := 0xF010
abbrev mode_pmb_crit : Nat := 0xF011
abbrev mode_pmb_poll_ms : Nat := 0xF012
abbrev mode_tj_warn_c : Nat := 0xF020
abbrev mode_tj_trip_c : Nat := 0xF021
abbrev mode_rest_timer_s : Nat := 0xF030
abbrev mode_lead_arm : Nat := 0xF040
abbrev mode_lead_seg : Nat := 0xF041
abbrev mode_arm_lead_seg : Nat := 0xF042
abbrev mode_arm_nseg : Nat := 0xF043
abbrev mode_arm_duplex : Nat := 0xF044
end P

/-- Parameters of subsystem 0x1. -/
def paramRows1 : List ParamDef := [
  ⟨0x1001, "sys.dev_addr", .u16, .ints 0 4095, .fill 0, 1, .deEnergised, false⟩,
  ⟨0x1020, "sys.mbx_tls_port", .u16, .ints 1 65535, .fill 7481, 1, .event, false⟩,
  ⟨0x1021, "sys.mbx_tls_en", .bitmap 2, .bits 2, .fill 0, 1, .event, false⟩,
  ⟨0x1022, "sys.mbx_idle_s", .u16, .ints 10 3600, .fill 300, 1, .event, false⟩,
  ⟨0x1023, "sys.gateway", .enum, .ints 0 1, .fill 0, 1, .event, false⟩,
  ⟨0x1024, "sys.tunnel_to_ms", .u16, .ints 1 10000, .fill 10, 1, .event, false⟩,
  ⟨0x1025, "sys.lock_at_boot", .enum, .ints 0 1, .fill 0, 1, .boot, false⟩,
  ⟨0x1030, "sys.journal_ms", .u16, .ints 1 100, .fill 1, 1, .event, false⟩,
  ⟨0x1031, "sys.fatal_restart", .enum, .ints 0 1, .fill 0, 1, .event, false⟩,
  ⟨0x1032, "sys.image_serve", .enum, .ints 0 1, .fill 0, 1, .event, false⟩]

/-- Parameters of subsystem 0x2. -/
def paramRows2 : List ParamDef := [
  ⟨0x2001, "link.t_ll_us", .u16, .ints 4 1000, .fill 20, 1, .deEnergised, true⟩,
  ⟨0x2002, "link.t_sb_ms", .u16, .ints 1 5000, .fill 10, 1, .deEnergised, true⟩,
  ⟨0x2003, "link.double_rate", .enum, .ints 0 1, .fill 0, 1, .deEnergised, true⟩,
  ⟨0x2004, "link.asym_ps", .s16, .ints (-5000) 5000, .fill 0, 1, .event, false⟩,
  ⟨0x2005, "link.err_limit", .u16, .ints 256 65535, .fill 4096, 1, .cycle, false⟩,
  ⟨0x2006, "link.port_enable", .bitmap 48, .bits 48, .portGroups, 1, .deEnergised, true⟩]

/-- Parameters of subsystem 0x3. -/
def paramRows3 : List ParamDef := [
  ⟨0x3001, "meas.cv_preset", .enum, .ints 0 3, .cvct, 1, .deEnergised, true⟩,
  ⟨0x3002, "meas.ct_preset", .enum, .ints 0 3, .cvct, 1, .deEnergised, true⟩,
  ⟨0x3003, "meas.cv_slot", .u8, .intsOr 16 255 0, .fill 0, 1, .deEnergised, true⟩,
  ⟨0x3004, "meas.ct_slot", .u8, .intsOr 16 255 0, .fill 0, 1, .deEnergised, true⟩,
  ⟨0x3005, "meas.cell_align", .enum, .ints 0 1, .fill 1, 1, .deEnergised, true⟩,
  ⟨0x3010, "meas.ref_enable", .bitmap 8, .bits 8, .fill 0, 1, .cycle, false⟩,
  ⟨0x3011, "meas.ref_preset", .enum, .ints 0 7, .fill 1, 8, .cycle, false⟩,
  ⟨0x3012, "meas.ref_slot", .u8, .intsOr 16 255 0, .fill 0, 8, .cycle, false⟩,
  ⟨0x3013, "meas.ref_fs", .f32, .flNonzero, .fill 0x3F800000, 8, .event, false⟩,
  ⟨0x3014, "meas.ref_ofs", .f32, .fl 0xBF000000 0x3F000000, .fill 0x00000000, 8, .event, false⟩,
  ⟨0x3015, "meas.ref_skew_ns", .s16, .ints (-5000) 10000, .fill 0, 8, .cycle, false⟩,
  ⟨0x3016, "meas.ref_dph", .u16, .ints 0 1023, .fill 0, 8, .cycle, false⟩,
  ⟨0x3017, "meas.ref_align", .bitmap 8, .bits 8, .fill 0, 1, .cycle, false⟩,
  ⟨0x3018, "meas.ref_follow", .bitmap 8, .bits 8, .fill 0, 1, .deEnergised, true⟩,
  ⟨0x3019, "meas.mclk_rate", .enum, .ints 0 1, .fill 0, 2, .cycle, false⟩,
  ⟨0x301A, "meas.rmd_dly_tk", .u8, .ints 0 24, .rmdDelay, 8, .cycle, false⟩,
  ⟨0x3020, "meas.fade_len", .u16, .ints 0 4096, .fill 256, 1, .event, false⟩,
  ⟨0x3021, "meas.ovr_pct", .u8, .ints 50 99, .fill 90, 1, .cycle, false⟩,
  ⟨0x3022, "meas.frz_win", .u16, .ints 64 4096, .fill 512, 1, .event, false⟩,
  ⟨0x3023, "meas.frz_var", .u32, .ints 0 4294967295, .fill 1, 1, .event, false⟩,
  ⟨0x3024, "meas.perm_ms", .u16, .ints 10 10000, .fill 1000, 1, .cycle, false⟩]

/-- Parameters of subsystem 0x4. -/
def paramRows4 : List ParamDef := [
  ⟨0x4001, "sar.ref_src", .enum, .ints 0 1, .fill 0, 1, .event, false⟩,
  ⟨0x4002, "sar.refin_mv", .u16, .ints 2000 3000, .fill 2500, 1, .event, false⟩,
  ⟨0x4010, "sar.seq_mode", .enum, .ints 0 1, .fill 0, 4, .event, false⟩,
  ⟨0x4011, "sar.seq_period_ns", .u32, .steps 200 1000000 40, .fill 10000, 4, .event, false⟩,
  ⟨0x4012, "sar.seq_len", .u8, .upTo [32, 32, 32, 24], .fill 0, 4, .event, false⟩,
  ⟨0x4013, "sar.seq_slot", .u32, .slotWord, .fill 0, 128, .event, false⟩,
  ⟨0x4014, "sar.queue", .u16, .ints 0 1023, .sarQueue, 4, .deEnergised, false⟩,
  ⟨0x4020, "sar.gain", .enum, .ints 0 3, .fill 0, 16, .event, false⟩,
  ⟨0x4030, "sar.cal_n", .u16, .oneOf [256, 1024, 4096, 16384], .fill 1024, 1, .event, false⟩,
  ⟨0x4040, "sar.cal_ofs", .s32, .ints (-16384) 16384, .fill 0, 64, .event, false⟩,
  ⟨0x4041, "sar.cal_k", .u32, .ints 966367642 1181116006, .fill 1073741824, 64, .event, false⟩,
  ⟨0x4042, "sar.cal_valid", .bitmap 4, .bits 4, .fill 0, 16, .event, false⟩]

/-- Parameters of subsystem 0x5, part 1. -/
def paramRows5a : List ParamDef := [
  ⟨0x5001, "mod.cell_mix", .enum, .ints 0 2, .fill 0, 1, .deEnergised, false⟩,
  ⟨0x5002, "mod.t_mod_ns", .u32, .steps 2000 100000 40, .fill 10000, 1, .deEnergised, false⟩,
  ⟨0x5003, "mod.depth", .u8, .intsOr 2 4 0, .fill 0, 1, .deEnergised, false⟩,
  ⟨0x5004, "mod.fibre_max_m", .u16, .ints 0 500, .fill 500, 1, .deEnergised, false⟩,
  ⟨0x5005, "mod.frac_mode", .enum, .ints 0 1, .fill 1, 1, .cycle, false⟩,
  ⟨0x5006, "mod.min_pulse_ns", .u32, .ints 0 10000, .fill 400, 1, .cycle, false⟩,
  ⟨0x5007, "mod.dly_max_ns", .u16, .ints 0 4000, .fill 2000, 1, .deEnergised, false⟩,
  ⟨0x5008, "mod.dly_shift", .u8, .ints 1 8, .fill 4, 1, .cycle, false⟩,
  ⟨0x5009, "mod.dly_reject_ns", .u16, .ints 50 2000, .fill 500, 1, .cycle, false⟩,
  ⟨0x500A, "mod.dly_imin_a", .u16, .ints 0 1000, .fill 20, 1, .cycle, false⟩,
  ⟨0x500B, "mod.edge_timeout_ns", .u32, .ints 1000 50000, .fill 10000, 1, .cycle, false⟩,
  ⟨0x5010, "mod.band_mv", .u16, .ints 0 50000, .fill 2000, 1, .cycle, false⟩,
  ⟨0x5011, "mod.band_mode", .enum, .ints 0 1, .fill 1, 1, .cycle, false⟩,
  ⟨0x5012, "mod.band_min_mv", .u16, .ints 0 50000, .fill 200, 1, .event, false⟩,
  ⟨0x5013, "mod.band_max_mv", .u16, .ints 0 50000, .fill 20000, 1, .event, false⟩,
  ⟨0x5014, "mod.spread_lim_mv", .u32, .ints 100 500000, .fill 80000, 1, .event, false⟩,
  ⟨0x5015, "mod.band_win", .u16, .ints 100 65535, .fill 2500, 1, .event, false⟩,
  ⟨0x5016, "mod.dir_dead_a", .u16, .ints 0 500, .fill 5, 1, .cycle, false⟩,
  ⟨0x5017, "mod.iarm_src", .u8, .intsOr 0 7 0xFF, .fill 255, 1, .deEnergised, false⟩,
  ⟨0x5020, "mod.cap_nom_uf", .u32, .ints 100 100000, .fill 8000, 1, .deEnergised, false⟩,
  ⟨0x5021, "mod.cap_alpha_shift", .u8, .ints 2 10, .fill 4, 1, .event, false⟩,
  ⟨0x5022, "mod.cap_dv_min_mv", .u32, .ints 1000 200000, .fill 20000, 1, .event, false⟩,
  ⟨0x5023, "mod.cap_warn_pct", .u8, .ints 80 99, .fill 96, 1, .cycle, false⟩,
  ⟨0x5024, "mod.cap_retire_pct", .u8, .ints 70 98, .fill 92, 1, .cycle, false⟩,
  ⟨0x5025, "mod.dly_drift_ns", .u16, .ints 50 2000, .fill 400, 1, .cycle, false⟩,
  ⟨0x5026, "mod.est_hold_us", .u16, .ints 0 1000, .fill 200, 1, .cycle, false⟩,
  ⟨0x5030, "mod.n_min", .u16, .ints 0 768, .fill 0, 1, .cycle, false⟩,
  ⟨0x5031, "mod.n_fb_min", .u16, .ints 0 768, .fill 0, 1, .cycle, false⟩,
  ⟨0x5032, "mod.red_warn", .u8, .ints 0 64, .fill 2, 1, .cycle, false⟩,
  ⟨0x5033, "mod.red_reserve", .u8, .ints 0 64, .fill 1, 1, .cycle, false⟩]

/-- Parameters of subsystem 0x5, part 2. -/
def paramRows5b : List ParamDef := [
  ⟨0x5034, "mod.retire_gap_ms", .u32, .ints 100 60000, .fill 1000, 1, .cycle, false⟩,
  ⟨0x5035, "mod.retire_predictive", .enum, .ints 0 1, .fill 1, 1, .cycle, false⟩,
  ⟨0x5036, "mod.blk_hold", .u8, .ints 0 3, .fill 1, 1, .cycle, false⟩,
  ⟨0x5037, "mod.pg_segidx", .u8, .ints 0 15, .segId, 3, .deEnergised, false⟩,
  ⟨0x5038, "mod.pg_arm", .u8, .intsOr 0 5 0xFF, .fill 0, 3, .deEnergised, false⟩]

/-- Parameters of subsystem 0x6, part 1. -/
def paramRows6a : List ParamDef := [
  ⟨0x6001, "ctl.app", .enum, .ints 0 2, .fill 0, 1, .deEnergised, true⟩,
  ⟨0x6002, "ctl.n_ctl", .u8, .ints 1 64, .fill 2, 1, .deEnergised, true⟩,
  ⟨0x6003, "ctl.n_out", .u8, .ints 1 100, .fill 10, 1, .deEnergised, true⟩,
  ⟨0x6004, "ctl.src_udc", .u8, .ints 0 7, .fill 0, 1, .deEnergised, true⟩,
  ⟨0x6005, "ctl.src_ug", .u8, .intsOr 0 7 0xFF, .each [1, 2, 3], 3, .deEnergised, true⟩,
  ⟨0x6006, "ctl.f_nom_hz", .f32, .fl 0x42340000 0x42840000, .fill 0x42480000, 1, .deEnergised, true⟩,
  ⟨0x6007, "ctl.ug_nom_v", .f32, .fl 0x42C80000 0x49742400, .fill 0x47C35000, 1, .deEnergised, true⟩,
  ⟨0x6008, "ctl.pll_df_hz", .f32, .fl 0x3F800000 0x41200000, .fill 0x40A00000, 1, .control, true⟩,
  ⟨0x6009, "ctl.udc_lp_hz", .f32, .fl 0x41200000 0x461C4000, .fill 0x447A0000, 1, .control, true⟩,
  ⟨0x6010, "ctl.kp", .f32, .fl 0x00000000 0x4E6E6B28, .each [0x43340000, 0x41200000, 0x41200000, 0x41200000, 0x40400000, 0x3F800000, 0x3E4CCCCD, 0x3E4CCCCD, 0x40000000, 0x43FA0000, 0x42480000, 0x42480000, 0x42480000, 0x43FA0000], 14, .control, true⟩,
  ⟨0x6011, "ctl.ki", .f32, .fl 0x00000000 0x5368D4A5, .each [0x467A0000, 0x459C4000, 0x459C4000, 0x459C4000, 0x44480000, 0x437A0000, 0x41A00000, 0x41A00000, 0x43480000, 0x47435000, 0x43FA0000, 0x43FA0000, 0x43FA0000, 0x459C4000], 14, .control, true⟩,
  ⟨0x6012, "ctl.xlim", .f32, .fl 0x00000000 0x501502F9, .each [0x42700000, 0x47435000, 0x47435000, 0x469C4000, 0x469C4000, 0x469C4000, 0x4E6E6B28, 0x4E6E6B28, 0x459C4000, 0x4E6E6B28, 0x4CBEBC20, 0x4CBEBC20, 0x4CBEBC20, 0x461C4000], 14, .control, true⟩,
  ⟨0x6013, "ctl.kr_z", .f32, .fl 0x00000000 0x49742400, .fill 0x00000000, 1, .control, true⟩,
  ⟨0x6020, "ctl.l_arm_uh", .f32, .fl 0x42C80000 0x48435000, .fill 0x44FA0000, 1, .control, true⟩,
  ⟨0x6021, "ctl.l_grid_uh", .f32, .fl 0x00000000 0x48F42400, .fill 0x00000000, 1, .control, true⟩,
  ⟨0x6022, "ctl.bw_i_hz", .f32, .fl 0x41200000 0x459C4000, .fill 0x43960000, 1, .ident, true⟩,
  ⟨0x6023, "ctl.bw_z_hz", .f32, .fl 0x41200000 0x459C4000, .fill 0x43160000, 1, .ident, true⟩,
  ⟨0x6024, "ctl.i_max_a", .f32, .fl 0x3F800000 0x469C4000, .fill 0x447A0000, 1, .control, true⟩,
  ⟨0x6025, "ctl.i_prio", .enum, .ints 0 1, .fill 1, 1, .control, true⟩,
  ⟨0x6026, "ctl.iz_max_a", .f32, .fl 0x3F800000 0x461C4000, .fill 0x43480000, 1, .control, true⟩,
  ⟨0x6027, "ctl.w_max_pct", .f32, .fl 0x3F000000 0x41A00000, .fill 0x40A00000, 1, .control, true⟩,
  ⟨0x6028, "ctl.m_max", .f32, .fl 0x3F000000 0x3F800000, .fill 0x3F733333, 1, .control, true⟩,
  ⟨0x6029, "ctl.i_arm_trip_a", .f32, .fl 0x3F800000 0x46EA6000, .fill 0x44FA0000, 1, .control, true⟩,
  ⟨0x6030, "ctl.d_mode", .enum, .ints 0 1, .fill 0, 1, .control, true⟩,
  ⟨0x6031, "ctl.q_mode", .enum, .ints 0 1, .fill 0, 1, .control, true⟩,
  ⟨0x6032, "ctl.uac_droop", .f32, .fl 0x00000000 0x3F800000, .fill 0x00000000, 1, .control, true⟩,
  ⟨0x6040, "ctl.vcell_ref_v", .f32, .fl 0x42C80000 0x45CB2000, .fill 0x44D48000, 1, .outer, true⟩,
  ⟨0x6041, "ctl.pe_max_w", .f32, .fl 0x447A0000 0x4E6E6B28, .fill 0x4A989680, 1, .outer, true⟩,
  ⟨0x6042, "ctl.ma_max", .u16, .ints 1 4096, .fill 2048, 1, .outer, true⟩,
  ⟨0x6050, "ctl.drv_mode", .enum, .ints 0 1, .fill 0, 1, .control, true⟩]

/-- Parameters of subsystem 0x6, part 2. -/
def paramRows6b : List ParamDef := [
  ⟨0x6051, "ctl.spd_src", .enum, .ints 0 1, .fill 0, 1, .deEnergised, true⟩,
  ⟨0x6052, "ctl.tacho_ch", .u8, .ints 0 15, .fill 0, 1, .deEnergised, true⟩,
  ⟨0x6053, "ctl.tacho_k", .f32, .flNonzero, .fill 0x3A83126F, 1, .outer, true⟩,
  ⟨0x6054, "ctl.pole_pairs", .u8, .ints 1 32, .fill 2, 1, .deEnergised, true⟩,
  ⟨0x6055, "ctl.kt", .f32, .flPos, .fill 0x42C80000, 1, .control, true⟩,
  ⟨0x6056, "ctl.t_max_nm", .f32, .flPos, .fill 0x47C35000, 1, .control, true⟩,
  ⟨0x6057, "ctl.id_mag", .f32, .fl 0x00000000 0x461C4000, .fill 0x42C80000, 1, .control, true⟩,
  ⟨0x6058, "ctl.start_i_a", .f32, .fl 0x00000000 0x461C4000, .fill 0x43480000, 1, .control, true⟩,
  ⟨0x6059, "ctl.rs_mohm", .f32, .fl 0x00000000 0x461C4000, .fill 0x41200000, 1, .control, true⟩,
  ⟨0x605A, "ctl.l_s_uh", .f32, .fl 0x41200000 0x48F42400, .fill 0x447A0000, 1, .control, true⟩,
  ⟨0x605B, "ctl.obs_hp_hz", .f32, .fl 0x3C23D70A 0x41200000, .fill 0x3F000000, 1, .control, true⟩,
  ⟨0x605C, "ctl.obs_lp_hz", .f32, .fl 0x3F800000 0x447A0000, .fill 0x42480000, 1, .control, true⟩,
  ⟨0x605D, "ctl.obs_fmin_hz", .f32, .fl 0x3F000000 0x41A00000, .fill 0x40000000, 1, .control, true⟩,
  ⟨0x605E, "ctl.cm_fmax_hz", .f32, .fl 0x00000000 0x41F00000, .fill 0x41700000, 1, .control, true⟩,
  ⟨0x605F, "ctl.cm_hz", .f32, .fl 0x42480000 0x43FA0000, .fill 0x43160000, 1, .event, true⟩,
  ⟨0x6060, "ctl.cm_v", .f32, .fl 0x00000000 0x47435000, .fill 0x00000000, 1, .event, true⟩,
  ⟨0x6070, "ctl.prof_v", .f32, .flPos, .each [0x4E6E6B28, 0x4E6E6B28, 0x461C4000, 0x461C4000, 0x41200000, 0x47C35000], 6, .outer, true⟩,
  ⟨0x6071, "ctl.prof_a", .f32, .flPos, .each [0x501502F9, 0x501502F9, 0x47C35000, 0x47C35000, 0x41A00000, 0x49742400], 6, .outer, true⟩,
  ⟨0x6072, "ctl.prof_j", .f32, .flPos, .each [0x51BA43B7, 0x51BA43B7, 0x49742400, 0x49742400, 0x42C80000, 0x4B189680], 6, .outer, true⟩,
  ⟨0x6073, "ctl.prof_min", .f32, .flFinite, .each [0xCF32D05E, 0xCF32D05E, 0x00000000, 0x00000000, 0xC3C80000, 0xC9742400], 6, .event, true⟩,
  ⟨0x6074, "ctl.prof_max", .f32, .flFinite, .each [0x4F32D05E, 0x4F32D05E, 0x49742400, 0x49742400, 0x43C80000, 0x49742400], 6, .event, true⟩,
  ⟨0x6075, "ctl.prof_rebase", .f32, .flPos, .each [0x4CBEBC20, 0x4CBEBC20, 0x461C4000, 0x461C4000, 0x40A00000, 0x461C4000], 6, .outer, true⟩,
  ⟨0x6076, "ctl.ss_rate", .f32, .flPos, .each [0x4CBEBC20, 0x4CBEBC20, 0x447A0000, 0x447A0000, 0x40000000, 0x461C4000], 6, .outer, true⟩,
  ⟨0x6080, "ctl.handover_rate", .f32, .fl 0x3F800000 0x49742400, .fill 0x42C80000, 1, .control, true⟩,
  ⟨0x6081, "ctl.host_step_max_v", .f32, .fl 0x00000000 0x47C35000, .fill 0x43FA0000, 1, .control, true⟩,
  ⟨0x6082, "ctl.fb_react", .enum, .ints 0 1, .fill 0, 1, .control, true⟩,
  ⟨0x6083, "ctl.fb_hold_us", .u32, .ints 0 100000, .fill 200, 1, .control, true⟩,
  ⟨0x6084, "ctl.fe_emax", .f32, .flPos, .each [0x4D3EBC20, 0x4D3EBC20, 0x469C4000, 0x469C4000, 0x41200000, 0x469C4000, 0x43480000], 7, .outer, true⟩,
  ⟨0x6085, "ctl.fe_t_ms", .u32, .ints 1 60000, .each [200, 200, 50, 50, 1000, 500, 20], 7, .outer, true⟩,
  ⟨0x6086, "ctl.fe_react", .enum, .ints 0 1, .fill 1, 1, .outer, true⟩]

/-- Parameters of subsystem 0x6, part 3. -/
def paramRows6c : List ParamDef := [
  ⟨0x6090, "ctl.id_w_v", .f32, .fl 0x41200000 0x461C4000, .fill 0x43C80000, 1, .ident, true⟩,
  ⟨0x6091, "ctl.id_tp_us", .u32, .ints 20 10000, .fill 250, 1, .ident, true⟩,
  ⟨0x6092, "ctl.id_reps", .u8, .ints 1 64, .fill 8, 1, .ident, true⟩]

/-- Parameters of subsystem 0x7. -/
def paramRows7 : List ParamDef := [
  ⟨0x7001, "cyc.load_max", .u8, .ints 50 90, .fill 70, 1, .deEnergised, false⟩,
  ⟨0x7002, "cyc.reed_reserve", .u8, .ints 1 8, .fill 2, 1, .deEnergised, false⟩,
  ⟨0x7003, "cyc.selftest", .enum, .ints 0 1, .fill 0, 1, .event, false⟩,
  ⟨0x7004, "cyc.reed_err_limit", .u16, .ints 256 65535, .fill 4096, 1, .cycle, false⟩,
  ⟨0x7005, "cyc.overrun_warn", .u16, .ints 1 10000, .fill 10, 1, .cycle, false⟩]

/-- Parameters of subsystem 0x8. -/
def paramRows8 : List ParamDef := [
  ⟨0x8001, "fab.rate", .enum, .ints 0 2, .fill 0, 4, .deEnergised, false⟩,
  ⟨0x8002, "fab.port_enable", .bitmap 4, .bits 4, .fill 15, 1, .deEnergised, false⟩,
  ⟨0x8003, "fab.err_limit", .u16, .ints 256 65535, .fill 4096, 1, .cycle, false⟩,
  ⟨0x8004, "fab.msg_half_pct", .u8, .ints 10 90, .fill 50, 1, .event, false⟩,
  ⟨0x8005, "fab.bulk_half_pct", .u8, .ints 0 50, .fill 25, 1, .event, false⟩,
  ⟨0x8006, "fab.idle_us", .u32, .ints 10 1000000, .fill 1000, 1, .cycle, false⟩]

/-- Parameters of subsystem 0x9. -/
def paramRows9 : List ParamDef := [
  ⟨0x9001, "dup.mode", .enum, .ints 0 1, .fill 0, 1, .deEnergised, true⟩,
  ⟨0x9002, "dup.lease_cycles", .u8, .ints 4 64, .fill 16, 1, .deEnergised, true⟩,
  ⟨0x9003, "dup.join_ms", .u16, .ints 10 10000, .fill 200, 1, .event, false⟩,
  ⟨0x9004, "dup.dig_limit", .u8, .ints 1 255, .fill 8, 1, .cycle, false⟩,
  ⟨0x9005, "dup.ready_match", .u8, .ints 8 255, .fill 16, 1, .cycle, false⟩,
  ⟨0x9006, "dup.sync_window", .u16, .ints 256 65535, .fill 4096, 1, .event, false⟩]

/-- Parameters of subsystem 0xA. -/
def paramRowsA : List ParamDef := [
  ⟨0xA001, "time.root_arm", .u8, .ints 0 5, .fill 0, 1, .deEnergised, false⟩,
  ⟨0xA002, "time.root_seg", .u8, .ints 0 15, .fill 0, 1, .deEnergised, false⟩,
  ⟨0xA003, "time.link_asym_ps", .s16, .ints (-5000) 5000, .fill 0, 8, .event, false⟩,
  ⟨0xA004, "time.ct_step_ns", .u16, .ints 10 10000, .fill 100, 1, .event, false⟩,
  ⟨0xA005, "time.ct_slew_ppm", .u16, .ints 1 100, .fill 20, 1, .event, false⟩,
  ⟨0xA006, "time.root_loss_cyc", .u16, .ints 64 4096, .fill 64, 1, .cycle, false⟩,
  ⟨0xA010, "time.policy", .enum, .ints 0 2, .fill 0, 1, .event, false⟩,
  ⟨0xA011, "time.domain_size", .u16, .ints 1 4096, .fill 1, 1, .event, false⟩,
  ⟨0xA012, "time.step_limit_ns", .u32, .ints 100 1000000, .fill 1000, 1, .event, false⟩,
  ⟨0xA013, "time.wall_slew_ppm", .u16, .ints 1 500, .fill 100, 1, .event, false⟩,
  ⟨0xA014, "time.holdover_max_s", .u32, .ints 1 86400, .fill 600, 1, .event, false⟩,
  ⟨0xA015, "time.wall_check_ns", .u32, .ints 100 1000000, .fill 10000, 1, .event, false⟩,
  ⟨0xA020, "time.ptp_port_en", .bitmap 2, .bits 2, .fill 0, 1, .event, false⟩,
  ⟨0xA021, "time.ptp_profile", .enum, .ints 0 1, .fill 0, 1, .event, false⟩,
  ⟨0xA022, "time.ptp_transport", .enum, .ints 0 1, .fill 0, 1, .event, false⟩,
  ⟨0xA023, "time.ptp_delay", .enum, .ints 0 1, .fill 0, 1, .event, false⟩,
  ⟨0xA024, "time.ptp_step", .enum, .ints 0 1, .fill 1, 1, .event, false⟩,
  ⟨0xA025, "time.ptp_domain", .u8, .ints 0 127, .fill 0, 1, .event, false⟩,
  ⟨0xA026, "time.ptp_role", .enum, .ints 0 1, .fill 0, 1, .event, false⟩,
  ⟨0xA027, "time.ptp_prio", .u8, .ints 0 255, .each [128, 128], 2, .event, false⟩,
  ⟨0xA028, "time.ptp_log_sync", .s8, .ints (-4) 1, .fill 0, 1, .event, false⟩,
  ⟨0xA029, "time.eth_ext_ps", .s32, .ints 0 100000, .fill 0, 4, .event, false⟩]

/-- Parameters of subsystem 0xB, part 1. -/
def paramRowsBa : List ParamDef := [
  ⟨0xB001, "rec.ch_src", .u16, .u16any, .fill 65535, 256, .arm, false⟩,
  ⟨0xB002, "rec.ch_fmt", .enum, .ints 0 1, .fill 0, 256, .arm, false⟩,
  ⟨0xB003, "rec.ch_red", .enum, .ints 0 5, .fill 0, 256, .arm, false⟩,
  ⟨0xB004, "rec.ch_div", .u16, .ints 1 4096, .fill 1, 256, .arm, false⟩,
  ⟨0xB005, "rec.set_item", .enum, .ints 0 4, .fill 0, 16, .arm, false⟩,
  ⟨0xB006, "rec.set_ports", .bitmap 48, .bits 48, .fill 0, 16, .arm, false⟩,
  ⟨0xB007, "rec.set_op", .enum, .ints 0 3, .fill 1, 16, .arm, false⟩,
  ⟨0xB010, "rec.pre_ns", .u32, .ints 0 100000000, .fill 1000000, 1, .arm, false⟩,
  ⟨0xB011, "rec.post_ns", .u32, .ints 1000 4000000000, .fill 4000000, 1, .arm, false⟩,
  ⟨0xB012, "rec.seg_kb", .u32, .pow2 64 65536, .fill 4096, 1, .deEnergised, false⟩,
  ⟨0xB013, "rec.pool_mb", .u32, .ints 0 8192, .fill 1024, 1, .deEnergised, false⟩,
  ⟨0xB014, "rec.chain", .enum, .ints 0 1, .fill 1, 1, .arm, false⟩,
  ⟨0xB015, "rec.full_mode", .enum, .ints 0 1, .fill 0, 1, .arm, false⟩,
  ⟨0xB016, "rec.count", .u32, .ints 0 65536, .fill 0, 1, .arm, false⟩,
  ⟨0xB017, "rec.ev_lat_us", .u16, .ints 1 1000, .fill 50, 1, .arm, false⟩,
  ⟨0xB018, "rec.fab_lat_us", .u16, .ints 3 1000, .fill 10, 1, .arm, false⟩,
  ⟨0xB019, "rec.export_bus", .bitmap 4, .bits 4, .fill 0, 1, .arm, false⟩,
  ⟨0xB01A, "rec.export_fab", .enum, .ints 0 1, .fill 0, 1, .arm, false⟩,
  ⟨0xB020, "rec.bus_mode", .enum, .ints 0 2, .fill 0, 4, .arm, false⟩,
  ⟨0xB021, "rec.bus_drive", .bitmap 4, .bits 4, .fill 0, 1, .arm, false⟩,
  ⟨0xB022, "rec.bus_dly_ns", .u16, .ints 0 1000, .fill 0, 4, .arm, false⟩,
  ⟨0xB023, "rec.bus_ofs_ns", .u32, .ints 1000 1000000, .fill 20000, 1, .arm, false⟩,
  ⟨0xB030, "rec.u_role", .enum, .ints 0 2, .fill 0, 16, .arm, false⟩,
  ⟨0xB031, "rec.u_src", .u16, .u16any, .fill 65535, 16, .arm, false⟩,
  ⟨0xB032, "rec.u_type", .enum, .ints 0 6, .fill 0, 16, .arm, false⟩,
  ⟨0xB033, "rec.u_dir", .enum, .ints 0 2, .fill 0, 16, .arm, false⟩,
  ⟨0xB034, "rec.u_thr_hi", .f32, .flFinite, .fill 0x00000000, 16, .arm, false⟩,
  ⟨0xB035, "rec.u_thr_lo", .f32, .flFinite, .fill 0x00000000, 16, .arm, false⟩,
  ⟨0xB036, "rec.u_hys", .f32, .flNonneg, .fill 0x00000000, 16, .arm, false⟩,
  ⟨0xB037, "rec.u_cmp", .enum, .ints 0 3, .fill 1, 16, .arm, false⟩]

/-- Parameters of subsystem 0xB, part 2. -/
def paramRowsBb : List ParamDef := [
  ⟨0xB038, "rec.u_w1", .u32, .ints 1 16777216, .fill 1, 16, .arm, false⟩,
  ⟨0xB039, "rec.u_w2", .u32, .ints 1 16777216, .fill 1, 16, .arm, false⟩,
  ⟨0xB03A, "rec.u_k", .u8, .ints 1 64, .fill 1, 16, .arm, false⟩,
  ⟨0xB03B, "rec.u_ev", .u32, .u32any, .fill 0, 16, .arm, false⟩,
  ⟨0xB03C, "rec.u_qual", .u8, .ints 0 63, .fill 0, 16, .arm, false⟩,
  ⟨0xB03D, "rec.u_holdoff_us", .u32, .ints 0 10000000, .fill 0, 16, .arm, false⟩]

/-- Parameters of subsystem 0xC. -/
def paramRowsC : List ParamDef := [
  ⟨0xC001, "que.cap_items", .u16, .ints 1 65535, .fill 1024, 1024, .deEnergised, false⟩,
  ⟨0xC002, "que.cap_gran", .u32, .ints 64 131072, .fill 4096, 1024, .deEnergised, false⟩,
  ⟨0xC003, "que.wm_hi", .u32, .ints 1 131072, .fill 3072, 1024, .cycle, false⟩,
  ⟨0xC004, "que.wm_lo", .u32, .ints 0 131071, .fill 1024, 1024, .cycle, false⟩,
  ⟨0xC005, "que.fc_out", .u8, .intsOr 0 3 0xFF, .fill 255, 1024, .cycle, false⟩,
  ⟨0xC006, "que.fc_in", .u8, .intsOr 0 3 0xFF, .fill 255, 1024, .cycle, false⟩,
  ⟨0xC007, "que.host", .enum, .ints 0 2, .fill 0, 1024, .cycle, false⟩,
  ⟨0xC008, "que.pool_low", .u32, .ints 0 131072, .fill 8192, 1, .cycle, false⟩]

/-- Parameters of subsystem 0xD. -/
def paramRowsD : List ParamDef := [
  ⟨0xD001, "safe.cfg_raw", .u16, .ints 0 4095, .safeCfg, 1, .boot, false⟩,
  ⟨0xD002, "safe.seal", .u16, .ints 0 65535, .safeSeal, 1, .boot, false⟩,
  ⟨0xD003, "safe.filter_code", .u8, .ints 0 7, .safeField 0 3, 1, .boot, false⟩,
  ⟨0xD004, "safe.disc_code", .u8, .ints 0 7, .safeField 3 3, 1, .boot, false⟩,
  ⟨0xD005, "safe.restart", .enum, .ints 0 1, .safeField 6 2, 1, .boot, false⟩,
  ⟨0xD006, "safe.out_mode", .enum, .ints 0 1, .safeField 8 2, 1, .boot, false⟩,
  ⟨0xD007, "safe.fn_enable", .bitmap 2, .bits 2, .safeField 10 2, 1, .boot, false⟩]

/-- Parameters of subsystem 0xE. -/
def paramRowsE : List ParamDef := [
  ⟨0xE001, "sec.tamper_erase", .enum, .ints 0 1, .fill 1, 1, .boot, false⟩,
  ⟨0xE002, "sec.rollback_auto", .enum, .ints 0 1, .fill 0, 1, .boot, false⟩]

/-- Parameters of subsystem 0xF. -/
def paramRowsF : List ParamDef := [
  ⟨0xF001, "mode.chg_min_pct", .u8, .ints 50 100, .fill 90, 1, .conv, false⟩,
  ⟨0xF002, "mode.deen_max_v", .f32, .fl 0x00000000 0x45CB2000, .fill 0x42480000, 1, .conv, false⟩,
  ⟨0xF003, "mode.fn_enable", .bitmap 8, .bits 5, .fill 31, 1, .cycle, false⟩,
  ⟨0xF004, "mode.sim_dly_ns", .u16, .ints 0 4000, .fill 1000, 1, .deEnergised, false⟩,
  ⟨0xF010, "mode.pmb_addr", .u8, .intsOr 0x08 0x77 0, .fill 0, 8, .deEnergised, false⟩,
  ⟨0xF011, "mode.pmb_crit", .bitmap 8, .bits 8, .fill 0, 1, .event, false⟩,
  ⟨0xF012, "mode.pmb_poll_ms", .u16, .ints 1 1000, .fill 10, 1, .event, false⟩,
  ⟨0xF020, "mode.tj_warn_c", .u8, .ints 60 115, .fill 105, 1, .event, false⟩,
  ⟨0xF021, "mode.tj_trip_c", .u8, .ints 100 125, .fill 120, 1, .event, false⟩,
  ⟨0xF030, "mode.rest_timer_s", .u32, .ints 0 86400, .fill 0, 1, .event, false⟩,
  ⟨0xF040, "mode.lead_arm", .u8, .ints 0 5, .fill 0, 1, .deEnergised, false⟩,
  ⟨0xF041, "mode.lead_seg", .u8, .ints 0 15, .fill 0, 1, .deEnergised, false⟩,
  ⟨0xF042, "mode.arm_lead_seg", .u8, .ints 0 15, .fill 0, 6, .deEnergised, false⟩,
  ⟨0xF043, "mode.arm_nseg", .u8, .ints 1 16, .fill 1, 6, .deEnergised, false⟩,
  ⟨0xF044, "mode.arm_duplex", .bitmap 16, .bits 16, .fill 0, 6, .deEnergised, false⟩]

/-- Every parameter, in ascending ID order (Tables 02-10, 03-12, 04-13, 05-10, 06-8, 07-9, 08-12, 09-10, 10-6, 11-11, 12-16,
13-11, 14-16, 15-13 and R512). -/
def paramTable : List ParamDef :=
  paramRows1 ++ paramRows2 ++ paramRows3 ++ paramRows4 ++ paramRows5a ++ paramRows5b ++ paramRows6a ++ paramRows6b ++ paramRows6c ++ paramRows7 ++ paramRows8 ++ paramRows9 ++ paramRowsA ++ paramRowsBa ++ paramRowsBb ++ paramRowsC ++ paramRowsD ++ paramRowsE ++ paramRowsF

end Sys2Proof.Machine
end

