-- ==== Sys2Proof/Machine/State.lean ====
section
/-!
DEFINITION. Machine/State.lean: the state of one SD4896 as plain data, unit by unit, and the state after reset. A field's
initial value is its reset value; where the manual gives none, the value is zero, empty or false (DESIGN CHOICE, log entry 5).
-/
namespace Sys2Proof.Machine

/-! ## Stops -/

/-- Faults. -/
inductive Fault where
  /-- Raised by a command whose operand names something the device does not have (cell port 48, queue 1,024): outside
  the address space of its state. Safe: the block has no such command. -/
  | noSuchObject
  deriving DecidableEq, Repr

/-- Refusals. -/
inductive Refusal where
  /-- An arm of `exec` whose command has no meaning yet, by its mnemonic. Safe. -/
  | notModelled (mnemonic : String)
  deriving DecidableEq, Repr

/-! ## Arms and cells (chapter 2), tasks and reeds (chapter 7) -/

/-- A reed (R231, R256): its registers and counts. What its local memory holds (code, parameter page, cell records, slot window of
Table 07-1) is state of the device, kept once and by content (DEDUCED, log entry 140). -/
structure Reed where
  bucket : Nat := 0
  ecc : Word := 0
  tasks : Word := 0
  steals : Word := 0
  reruns : Word := 0
  passes : BitVec 16 := 0          -- self-tests
  fails : BitVec 16 := 0
  erred : Bool := false            -- an error in this cycle
  deriving DecidableEq, Repr

/-- Causes of an overrun of the cell counter (R246). -/
structure OverrunCause where
  crit : Bool := false
  carry : Bool := false
  lag : Bool := false
  ref : Bool := false
  deriving DecidableEq, Repr

/-! ## Cell ports (chapter 3) -/

/-- A cell port. Instants with 0.25 ns resolution are in units of 0.25 ns of the TBC; delays in ps. -/
structure CellPort where
  stage : PortStage := .off
  retired : Bool := false
  retiredAt : Nat := 0
  fillOnly : Bool := false         -- one second after retirement (R126)
  bucket : Nat := 0
  badRun : Nat := 0
  goodRun : Nat := 0               -- consecutive valid data frames in LOCK
  began : Nat := 0                 -- start of the stage
  heard : Bool := false            -- a valid frame has come since LOCK began (Table 03-5)
  retrain : Option Nat := none     -- start of the retrain
  failTimes : List Nat := []
  retrains : Nat := 0
  retrainFails : Nat := 0
  echoes : List Int := []          -- L of the ECHO results, ps
  spreads : Nat := 0
  loop : Int := 0                  -- L plus CAP_TRX and CAP_TTX, fs
  aim : Int := 0                   -- φ + t_down at the last alignment, ps
  stepped : Bool := false          -- a step since the last cycle boundary (R104)
  asym : Int := 0                  -- link.asym_ps as of the last bring-up (R129)
  lastArr : Option Nat := none     -- arrival of the last marker, 0.25 ns
  caps : Tab Nat := []             -- cell-head registers read
  read : List Nat := []            -- addresses read in this bring-up
  written : List Nat := []         -- configuration registers whose RESP matched
  synced : Nat := 0                -- SYNC_EPOCH and SYNC_CYCLE answered
  alignN : Nat := 0                -- consecutive markers within ±1.0 ns
  head : Nat := 0                  -- cell-head state last reported
  accEpoch : Nat := 0              -- accepted epoch last reported
  committed : Nat := 0             -- last sequence number committed
  goff : Bool := false
  items : Tab Nat := []            -- status items
  itemAt : Tab Nat := []           -- epoch of receipt of each, µs of control time
  lateSeen : Word := 0             -- increments of items 6 and 7 seen
  higher : Nat := 0                -- consecutive data frames with a higher epoch (R309)
  healthSince : Option Nat := none
  realign : Option Nat := none     -- cycles still to pass without a step (R104)
  mustAlign : Bool := false        -- SYNC_EPOCH and SYNC_CYCLE are due once BYP has executed
  capBad : Bool := false           -- capability rejected (R109)
  mixBad : Bool := false           -- does not fit the arm mix (R39)
  late : Bool := false             -- data frame too late for release (R134)
  fibreBad : Bool := false         -- fibre too long for the pipeline (R74)
  rx : BitVec 17 := BitVec.allOnes 17    -- descrambler of the uplink (R89)
  live : Bool := false             -- has reached RUN: its cell gets command frames in every stage (R107)
  sent : List (Nat × CmdFrame) := []     -- last command frames by target cycle, newest first
  ctrl : List (CtrlOp × Nat × Nat) := []   -- CTRL operations waiting
  raise : Option Nat := none       -- cycles for which the epoch has been waiting to be raised (R319)
  good : Word := 0
  bad : Word := 0
  boots : Bool := false            -- full bring-up wanted after a retrain (R107)
  deriving DecidableEq, Repr

/-- A downlink frame that waits for its serialisation: the first bit period it may start in, and the phase-shifter setting
that comes with it (R103). -/
structure TxFrame where
  frame : DownFrame
  from_ : Nat
  phi : Option Nat := none
  deriving DecidableEq, Repr

/-- The transmitter of a cell port (R87 to R94). Bit periods of 4 ns are counted from own time 0. -/
structure Downlink where
  scr : BitVec 17 := BitVec.allOnes 17   -- scrambler
  busy : Nat := 0                  -- first bit period after the last frame that began
  phi : Nat := 0                   -- phase shifter, 0.25 ns
  phiAt : Nat := 0                 -- instant of its last step
  echo : Option Nat := none        -- t_tx of the ECHO under way, units of 0.05 ns
  wait : List TxFrame := []        -- frames not yet begun, oldest first
  hold : Bool := false             -- a block request waits for its CTRL NOP: no other frame begins (R94)
  deriving DecidableEq, Repr

/-- The cell ports. -/
structure CellPorts where
  ports : Tab CellPort := []
  deriving DecidableEq, Repr

/-! ## Measurement chains (chapter 4) -/

/-- What a chain is configured to: preset (0 to 3 C0 to C3, 4 to 11 P0 to P7), slot parameter, input period (ns), phase
delay and skew (ns). -/
structure ChainCfg where
  preset : Nat := 0
  pslot : Nat := 0
  tIn : Nat := 40
  delay : Nat := 0
  skew : Int := 0
  deriving DecidableEq, Repr

/-- An output as the sample table holds it (Table 04-8), with the control time of its release in units of 0.5 µs. -/
structure Sample where
  v : F32
  raw : Int
  tag : Nat
  t : Int                          -- t_s, TBASE ticks of control time
  rel : Nat
  deriving DecidableEq, Repr

/-- A sample of a filter stage kept for the recorder: its source class (Table 11-1), index and instant in 1/256 tick. -/
structure Tap where
  cls : Nat
  ix : Nat
  t : Int
  v : F32
  raw : Int
  tag : Nat
  ok : Bool
  deriving DecidableEq, Repr

/-- A decimation chain. Lists hold the newest first; what is not listed is 0. -/
structure Chain where
  on : Bool := false
  cfg : ChainCfg := {}
  bankB : Bool := false            -- active bank
  slotA : Nat := 0
  slotB : Nat := 0
  integ : List Word := [0, 0, 0, 0, 0]
  comb : List Word := [0, 0, 0, 0, 0]
  line : List Int := []            -- phase-delay line
  d1 : List Int := []
  d2a : List Int := []             -- FIR2 line of the active bank
  d2i : List Int := []             -- FIR2 line of the incoming bank
  clamp : Bool := false            -- a stage clamped since the last output
  ninv : Nat := 0                  -- invalid outputs to come (R156)
  fade : Option (Nat × Nat) := none        -- outputs of the running fade, and its length
  swap : Option (Nat × Nat × CmdRef) := none   -- requested: slot, c_start, its command
  change : List (Nat × ChainCfg) := []     -- synchronising resets to come, oldest first: from this control time on (ns), with these settings
  ix : Option Nat := none          -- index of the last sample seen
  since : Nat := 0                 -- index of the first sample after the last reset
  tail : Option (Nat × Nat) := none        -- after a copy of the FIR2 line: the old set's L_in, and the outputs whose windows may hold its values
  runVal : Bool := false
  runLen : Nat := 0
  stuck : List (Nat × Nat) := []   -- index of the 64th and of the last sample of stuck runs
  substs : List (Nat × Nat) := []  -- first and last index of substituted blocks
  ovrRun : Nat := 0
  ovrOk : Nat := 0
  ovr : Bool := false
  frzW : Nat := 512                -- length of the running window
  frzV : Nat := 1                  -- meas.frz_var as it stood when that window began
  frzN : Nat := 0
  frzS1 : Int := 0
  frzS2 : Int := 0
  frzBad : Bool := false
  frz : Bool := false
  faulty : Bool := false
  faultAt : Nat := 0               -- last entry, ns of control time
  entries : List Nat := []         -- entries within 10 s
  perm : Bool := false
  g : F32 := 0
  prev : BitVec 50 := 0            -- last block of the own stream
  prevFwd : BitVec 50 := 0         -- last block of the forwarded stream
  outs : List Sample := []         -- newest first
  oks : List Sample := []          -- last ok outputs
  lastV : Option Nat := none       -- release of the last output with V = 1
  missRun : Nat := 0               -- forwarded blocks missing in a row (R141)
  recvRun : Nat := 0
  own : Bool := false              -- a following chain on its own input
  fwdIn : Bool := false            -- its input is the forwarded stream
  inNext : Option Bool := none     -- the input from the next reset on
  eInteg : List Word := [0, 0, 0]  -- edge branch (R160)
  eComb : List Word := [0, 0, 0]
  wPrev : Option Int := none
  ring : List EdgeRec := []        -- last four edge records
  edgeN : Word := 0
  edges : List EdgeRec := []       -- not yet taken by DLY4
  susp : List (Nat × Nat) := []    -- spans of control time in which the branch was suspended, ns
  substN : Word := 0                -- substituted outputs
  nStk : Word := 0                 -- counts of DCH[n] (Table 16-10): stuck entries
  nFrz : Word := 0                 -- frozen entries
  nOvr : Word := 0                 -- overrange entries
  nSat : Word := 0                 -- saturations
  nOut : Word := 0                 -- outputs
  var : Word := 0                  -- last w × S2 − S1², saturating
  tap : Nat := 0                   -- source classes 0 to 3 that the recorder watches, as a mask
  taps : List Tap := []            -- not yet taken by the recorder, oldest first
  deriving DecidableEq, Repr

/-- The blocks of one port: epochs with the bits received, and those repaired. -/
structure PortBlocks where
  own : List (Nat × BitVec 50 × BitVec 50) := []
  repaired : List (Nat × BitVec 50 × BitVec 50) := []
  absent : List Nat := []          -- epochs the twin has no frame for
  deriving DecidableEq, Repr

/-- The measurement unit. -/
structure Meas where
  ch : Tab Chain := []
  coef : Tab (List Word) := []     -- slots 16 to 255
  blocks : Tab PortBlocks := []
  requested : List (Nat × Nat) := []       -- repair requests: epoch, port mask
  fwd : Tab (List (Nat × BitVec 50)) := [] -- forwarded REF blocks, by chain
  mclk : Nat := 0                  -- [1:0] MCLK0 and MCLK1 running, static low otherwise (R523)
  cellBlocks : Word := 0           -- cell blocks released
  refBlocks : Word := 0
  sync : List (Nat × Nat) := []    -- MEAS_SYNC: chain mask, c_start
  deriving DecidableEq, Repr

/-! ## SAR converters (chapter 5) -/

/-- A system calibration under way on a converter (R179, R180). `gain` is the code of Table 05-4. -/
structure SarCal where
  cmd : CmdRef
  ch : Nat
  gain : Nat
  full : Bool
  target : Int
  n : Nat
  got : Nat := 0
  sum : Int := 0
  sat : Bool := false
  deriving DecidableEq, Repr

/-- A converter and its sequencer. -/
structure SarSeq where
  run : Bool := false              -- a pass is in progress
  slots : List (Nat × Nat) := []   -- slot number and word of each slot of the pass
  pos : Nat := 0
  pass : Nat := 0
  staged : List Byte := []         -- entries of the item (Table 05-3)
  noPush : Bool := false           -- the pass in progress ends without its item (R184)
  disabled : Bool := false         -- until the next power-up (R187)
  bucket : Nat := 0
  cal : Option SarCal := none
  calWait : List SarCal := []      -- later SAR_CAL commands of this converter, oldest first
  due : Nat := 0                   -- own time at which the conversion under way ends
  off : Bool := false              -- powered down (R176)
  stop : Bool := false             -- stops at the end of the conversion under way (R178)
  len : Nat := 0                   -- host slots in force: sar.seq_len 0 acts at the next boundary (R184)
  halted : Bool := false           -- the disabling of its converter has taken effect (R184)
  convs : Word := 0                -- conversions (Table 16-10)
  pushed : Word := 0               -- items pushed
  dropped : Word := 0              -- items dropped
  start : Nat := 0                 -- TBC at the start of the last pass
  deriving DecidableEq, Repr

/-- A channel: its last direct result, and what its next conversions need. -/
structure SarChan where
  value : Int := 0
  tag : Nat := 0
  slot : Nat := 0
  adc : Nat := 0
  tbc : Nat := 0
  loRead : Bool := false           -- CHRES_LO read, CHRES_HI not yet
  ovr : Bool := false
  seen : Bool := false
  count : BitVec 16 := 0
  gain : Nat := 0                  -- gain code in force
  skip : Nat := 0                  -- conversions to come with V = 0
  zeros : Tab Int := []            -- pending ZERO by gain code
  last : Int := 0                  -- last corrected result of any slot, with its tag and pass
  lastTag : Nat := 0
  lastAt : Nat := 0
  deriving DecidableEq, Repr

/-- The SAR unit. -/
structure Sar where
  seq : Tab SarSeq := []
  ch : Tab SarChan := []
  settling : Bool := false         -- the reference settles (R178)
  settleAt : Nat := 0              -- own time from which it settles
  ext : Nat := 0                   -- reference in use, coded as sar.ref_src
  extNext : Nat := 0               -- the one that settles
  refMv : Nat := 2500              -- sar.refin_mv as it was taken with the reference
  refFault : Bool := false
  monMax : Tab Int := []           -- highest monitor results since reset (Table 16-4)
  monMin : Tab Int := []           -- and lowest
  tgradAt : Option Nat := none     -- last EV_MODE_TGRAD
  deriving DecidableEq, Repr
/-! ## Control engine (chapter 6) -/

/-- Inputs of the laws: u_dc, the grid voltages, and per arm the current (A), the voltage sum (V) and the counts. -/
structure LawIn where
  udc : F32 := 0
  ug : Ph := {}
  iArm : List F32 := []
  vArm : List F32 := []
  nUse : List Nat := []
  nFb : List Nat := []
  wTacho : F32 := 0
  deriving DecidableEq, Repr

/-- A control cycle under way: which law tasks are complete, and their working copy. -/
structure LawRun where
  k : Nat                          -- k_j
  inp : LawIn
  laws : LawState
  done : Nat := 0                  -- law tasks complete, in their order (DESIGN CHOICE, log entry 50)
  outer : Bool
  preset : Bool                    -- handover, or control source HOST (R217)
  presetI : Bool := false          -- the current integrators alone (R227)
  entry : Bool                     -- the handover is the entry into DEBLOCKED
  hold : Bool                      -- a lost input is being held (R221)
  gridLost : Bool
  recs : List RefRec := []
  deriving DecidableEq, Repr

/-- An identification run (R225 to R227). -/
structure IdentRun where
  cmd : Option CmdRef              -- none on the twin
  apply : Bool
  phase : Nat := 0
  rep : Nat := 0
  seg : Nat := 0                   -- 0 to 2: +W, −W, +W
  at_ : Nat := 0                   -- start of the segment, ns from the first control cycle
  started : Nat := 0               -- first control cycle
  samples : List (Nat × F32) := [] -- of the segment, newest first: control cycle and i_z
  slopes : List (Nat × F32) := []  -- L_seg of each segment: phase and value
  bad : Bool := false
  ended : Bool := false             -- every sequence has ended
  deriving DecidableEq, Repr

/-- A change that waits for its apply cycle (R229). -/
structure CtlChange where
  body : CtlBody
  apply : Nat
  acked : Bool
  cmd : Option CmdRef
  deriving DecidableEq, Repr

/-- The control engine. Arms are keyed by number. -/
structure Ctl where
  meas : Tab ArmMeas := []         -- last arm measurement record of each arm
  seenRef : List Nat := []         -- c0 of the last REF_REC blocks relayed
  host : Bool := false             -- control source HOST
  laws : LawState := {}
  lawRun : Option LawRun := none
  waits : List CtlChange := []
  lastRec : Tab RefRec := []       -- last record sent for each arm
  prevRec : Tab RefRec := []       -- and the one before it
  misses : Nat := 0                -- consecutive missed deadlines: the law counter
  hostQ : Tab (List RefRec) := []
  hostRun : Tab Nat := []          -- consecutive deadlines without a host record
  hostNew : List Nat := []         -- arms whose first host record is still to come (R219)
  hostDiff : Tab Int := []         -- what R219 still has to add, 10 mV
  block : Bool := false            -- records carry BLOCK (R224, R479)
  handover : Bool := false         -- a handover is due at the next control cycle (R217)
  handGains : Bool := false        -- installed gains preset the current integrators there (R227)
  wasConv : Bool := false          -- the converter was DEBLOCKED in the last control cycle
  wasOut : Bool := false           -- and out of DE-ENERGISED
  lost : Nat := 0                  -- inputs lost at the last snapshot, as a mask
  holdN : Option Nat := none       -- control cycles spent in the hold of R221
  okRun : Nat := 0                 -- consecutive snapshots without a loss during a hold
  restored : Option (Nat × Nat) := none   -- instant of the last restore, and its hold count
  hostLost : Nat := 0              -- arms whose host record is missing, as a mask
  locked : Bool := false           -- PLL
  goodN : Nat := 0                 -- control cycles with |eq| < 0.02
  badN : Nat := 0
  fe : Tab Nat := []               -- since when an error lies beyond ctl.fe_emax, own time
  feUp : Nat := 0                  -- following errors reported
  ilimAt : Option Nat := none      -- last EV_CTL_ILIMIT
  ident : Option IdentRun := none
  idPulse : Ph := {}               -- identification pulse on w
  modes : Nat := 0                 -- ctl.d_mode, ctl.q_mode and ctl.drv_mode in use
  deriving DecidableEq, Repr
/-- The hardware fallback generator (R248, R308): the h bit and the epoch it was started with, and its first target. -/
structure FallbackGen where
  h : Bool
  epoch : Nat
  first : Nat
  deriving DecidableEq, Repr

/-- The class of a task (Table 07-2). -/
inductive TaskClass where
  | crit | carry | law | lag | back
  deriving DecidableEq, Repr

/-- An entry of a template: the task, its class, its affinity (the role in the critical pool, or the number that places it in
the deferrable pool), the output slots it reads and its own (R233, R238). -/
structure TmplEntry where
  task : Task
  cls : TaskClass
  affinity : Nat
  inputs : List Nat
  slot : Nat
  deriving DecidableEq, Repr

/-- The cycle sequencer, the reeds, and the arms and cells they serve. -/
structure Cyc where
  k : Nat := 0                     -- modulation cycle in progress
  tk : Nat := 0                    -- own time of t_k
  run : Bool := false              -- a cycle has started
  done : List Task := []           -- tasks completed in this cycle
  done1 : List Task := []          -- in the last cycle
  done2 : List Task := []          -- in the cycle before it
  asked1 : List (Task × TaskClass) := []    -- the tasks of the last cycle's template
  asked2 : List (Task × TaskClass) := []    -- and of the one before it
  banks : Tab (List TmplEntry) := []        -- template memory (R233)
  bank : Nat := 0                  -- the active bank
  crit : List Nat := []            -- critical pool: the reed of each role (R241)
  defer : List Nat := []           -- deferrable pool
  reserve : List Nat := []         -- reserve reeds
  deque : Tab (List Task) := []    -- ready tasks by reed, the head first (R243)
  slots : Tab (List Nat) := []     -- outputs in the slot windows, by slot (R232, R238)
  skip1 : Bool := false            -- the last cycle overran: its CARRY tasks were not started
  skip2 : Bool := false            -- the cycle before it overran
  judged : Bool := false           -- the command deadline of this cycle has passed
  cause : OverrunCause := {}       -- causes found so far in this cycle
  lastCause : OverrunCause := {}   -- causes of the last overrun
  cellOvr : Nat := 0
  lawOvr : Nat := 0
  ovrCell : BitVec 16 := 0         -- SYS.OVERRUNS
  ovrLaw : BitVec 16 := 0
  firsts : List Nat := []          -- first overruns within 10 s, newest first
  rateAt : Option Nat := none      -- window in which OVERRUN_RATE was raised
  segFault : Bool := false
  fallback : Option FallbackGen := none
  rep : Bool := false              -- the last cycle repeated its commands (R68)
  snapMeas : Tab Sample := []      -- snapshot of t_k: newest output of each chain
  snapHist : Tab (List Sample) := []        -- and its ok outputs, newest first
  arms : Tab ArmState := []
  cells : Tab CellRec := []
  reeds : Tab Reed := []
  testing : Option Nat := none     -- reed under self-test
  nextTest : Nat := 0
  rotFail : Bool := false          -- a reed has failed in this rotation
  lateDigest : Option (Nat × BitVec 64) := none   -- outputs of the last cycle whose DIGEST is still to run: its digest
  capLow : Bool := false           -- EV_CYCLE_CAPACITY_LOW raised
  sentRec : List Byte := []        -- payloads of ARM_REC and REF_REC sent in this cycle (R314)
  deriving DecidableEq, Repr

/-! ## Fabric (chapter 8) -/

/-- Lane stages, coded as LANE[n].STATE [2:0]. -/
inductive LaneStage where
  | detect | cdr | equalise | block | hello | delay | up | retired
  deriving DecidableEq, Repr

/-- A fabric lane. -/
structure Lane where
  stage : LaneStage := .detect
  idle : Bool := false             -- electrical idle
  inverted : Bool := false
  partner : Option Ident := none
  accepted : Bool := false         -- identity accepted in this bring-up (R265)
  fast : Bool := false             -- fast retrain running (R273)
  began : Nat := 0                 -- start of the stage, or of the fast retrain
  lossAt : Option Nat := none      -- instant of the loss that the present retrain follows
  off : Bool := false              -- the transmitter does not use the lane (R291)
  partnerIdle : Bool := false      -- the partner announced IDLE_REQ
  bucket : Nat := 0
  badRun : Nat := 0
  crcErr : Word := 0
  markErr : Word := 0
  retrains : BitVec 16 := 0
  bringups : BitVec 16 := 0
  failTimes : List Nat := []       -- failed retrains within 10 s
  failTotal : BitVec 16 := 0
  freq : Int := 0                  -- 0.1 ppm
  pads : Int := 0                  -- pad words removed less repeated in this second
  ebFill : Nat := 0
  delay : Nat := 0                 -- one-way delay, ps
  results : List Nat := []         -- results of the DELAY stage
  lastTx : Option Nat := none      -- own last DELAY marker, 2^−16 tick
  lastRx : Option Nat := none      -- partner's last DELAY marker
  long : Bool := false             -- delay above its limit (R298)
  rx : Word := 0
  tx : Word := 0
  retx : Word := 0
  sinceSkip : Nat := 0             -- blocks since the last SKIP
  free : Nat := 0                  -- end of the block under way, 10 ps of own time
  scr : BitVec 31 := BitVec.allOnes 31   -- scrambler of the transmit direction (R266)
  otherIn : Option Nat := none     -- cycle whose key window has had its one CYCLE block other than KEY (R276)
  busyAt : Nat := 0                -- last block other than IDLE and SKIP
  deriving DecidableEq, Repr

/-- One block of a MESSAGE or BULK unit. -/
structure TxBlock where
  unit : FabUnit
  ix : Nat
  deriving DecidableEq, Repr

/-- A block on a lane (Table 08-5). KEY stands for its three parts, numbered blocks for MESSAGE and BULK. -/
inductive FabBlock where
  | key (b : KeyBlock) (bad : Bool)        -- bad: with the complemented CRC (R279)
  | want (masks : List Nat)
  | refRec (b : RefBlock)
  | armRec (r : ArmMeas)
  | drone (b : Drone)
  | refFwd (epoch : Nat) (bits : Tab (BitVec 50))
  | repairReq (epoch mask : Nat)
  | repairData (epoch : Nat) (r : RepairData)
  | numbered (seq : Nat) (b : TxBlock)
  | skip
  | hello (i : Ident)
  | delay (m : DelayMsg)
  | linkState (c : LinkChange)
  | ack (seq : Nat) (nak : Bool)
  | laneCmd (c : LaneCmd)
  | trigger (m : TrigMsg)
  | time (m : TimeMsg)
  deriving DecidableEq, Repr

/-- A block that waits for its lane: since when, in 10 ps of own time, and the lane that must carry it, if one must. -/
structure TxItem where
  blk : FabBlock
  given : Nat
  lane : Option Nat := none
  deriving DecidableEq, Repr

/-- The link of a fabric port. -/
structure Link where
  width : Nat := 0                 -- lanes in use: 0 down, 1 half, 2 full
  base : Nat := 0                  -- sequence number of the first unacknowledged block
  unacked : List TxBlock := []     -- sent, oldest first
  again : Nat := 0                 -- of the unacknowledged blocks, the last ones still to be sent again (R277)
  queue : List TxBlock := []       -- numbered blocks waiting, oldest first
  queuedAt : Nat := 0              -- when the last of them came, 10 ps of own time
  tx : List TxItem := []           -- other blocks waiting, oldest first
  keyAt : Nat := 0                 -- cycle of the last KEY unit, and KEY units of that cycle (R279)
  keyN : Nat := 0
  shareAt : Nat := 0               -- window of 100 µs of the shares of R292, and what MESSAGE and BULK have used in it, 10 ps
  msgUsed : Nat := 0
  bulkUsed : Nat := 0
  sentAt : Nat := 0                -- start of the present wait for an ACK
  rxSeq : Nat := 0                 -- next sequence number expected
  rxN : Nat := 0                   -- blocks received since the last ACK
  started : Option Nat := none     -- start of bring-up
  reported : Bool := false         -- reported down since it was last up
  deriving DecidableEq, Repr

/-- The fabric. Ports are keyed 0 E, 1 W, 2 T, 3 U; ring link i joins port E of SEG_ID i to port W of the next. -/
structure Fabric where
  lanes : Tab Lane := []
  links : Tab Link := []
  ring : Tab Nat := []             -- widths of the plan in force, 2 where not listed
  known : Tab LinkChange := []     -- last change of each link, keyed 4 × seg + port
  plans : List LinkChange := []    -- changes that wait for their apply cycle
  routes : List Route := []
  delivered : List (Nat × Nat) := []         -- source and identifier of units delivered
  casts : List (Nat × Nat × Nat) := []       -- broadcasts seen: source, identifier, ports sent on
  nextId : Nat := 0
  deriving DecidableEq, Repr

/-! ## Duplex twins (chapter 9) -/

/-- Twin states; a DUPLEX device that has not decided is joining (R301, R322). -/
inductive TwinRole where
  | joining | solo | holder | standby
  deriving DecidableEq, Repr

/-- Stages of a standby (R301). -/
inductive TwinStage where
  | ready | sync | unfit
  deriving DecidableEq, Repr

/-- One drone path (R313). -/
structure DronePath where
  got : Bool := false              -- a valid drone of the current cycle has arrived
  silent : Nat := 0                -- consecutive silent cycles
  good : Nat := 0                  -- consecutive cycles with a drone
  fault : Bool := false
  deriving DecidableEq, Repr

/-- State transfer (R324, R325). -/
structure SyncRun where
  c : Nat                          -- snapshot cycle
  swapAt : Option Nat := none      -- boundary at which the replayed state is current
  deriving DecidableEq, Repr

/-- The duplex unit. -/
structure Twin where
  role : TwinRole := .joining
  stage : TwinStage := .sync
  epoch : Nat := 0                 -- held or followed
  oldEpoch : Nat := 0              -- the epoch before a takeover (R319)
  lExp : Nat := 0
  heard : Bool := false            -- a drone came after the one that carried L_exp
  t : DronePath := {}
  hb : DronePath := {}
  hbScr : BitVec 17 := BitVec.allOnes 17   -- scrambler of HB_TX (R312)
  strap : Bool := false            -- the twin carries the same letter (R302)
  lostHolder : Bool := false       -- R308
  joinAt : Nat := 0                -- start of the join
  bootAt : Option Nat := none      -- first BOOT report of the join (R322)
  claim : Bool := false            -- the wait of R310 or R322 is over
  cfgSent : Bool := false          -- the committed set has been sent to the joining twin (R323)
  leaseSeen : Nat := 0             -- last cycle in which a drone's lease lay above the current cycle
  lastDrone : Option Drone := none -- newest from the twin on either path
  digests : Tab (BitVec 64) := []  -- own digests by cycle
  compared : Nat := 0              -- last cycle compared
  hbDigest : Option (Nat × BitVec 32) := none   -- digest of the last HB frame, with its cycle
  mism : BitVec 16 := 0
  misRun : Nat := 0
  matchRun : Nat := 0
  synced : Bool := false           -- the present state transfer has completed (R303)
  asked : Bool := false            -- a snapshot has been requested (R324)
  shadow : Option Carried := none  -- S(c) replayed, waiting for its boundary
  sync : Option SyncRun := none
  syncFails : List Nat := []
  syncHeld : Bool := false         -- three failures: waits for DUP_RESYNC
  reasons : Nat := 0
  selfFail : Bool := false
  stPass : BitVec 16 := 0
  stFail : BitVec 16 := 0
  twinHealth : Option HealthReport := none
  own : HealthReport := {}         -- last own report
  rel : Option (Nat × CmdRef) := none      -- handover: apply cycle and command (R320)
  twinRel : Option Nat := none     -- release announced by the holder
  demote : Option (Nat × Nat) := none      -- demotion due: reason and 6-bit or full epoch
  changes : List TwinChange := []  -- twin-agreed changes waiting
  handovers : BitVec 16 := 0
  takeovers : BitVec 16 := 0       -- takeovers and claims (Table 16-8)
  takeCycle : Nat := 0             -- cycle of the last takeover or claim
  demotions : BitVec 16 := 0
  lastDemote : Nat := 0            -- cycle of the last demotion
  syncsDone : BitVec 16 := 0
  syncsFailed : BitVec 16 := 0
  raised : BitVec 16 := 0          -- cells raised under R319
  raisedLate : BitVec 16 := 0
  tFaults : BitVec 16 := 0         -- path faults and restorations
  tBack : BitVec 16 := 0
  hbTx : Bool := false             -- HB_TX driven; static low while no drones are sent (R523)
  hbErrs : BitVec 16 := 0          -- HB frames with CRC or framing errors (Table 16-8)
  hbFaults : BitVec 16 := 0
  hbBack : BitVec 16 := 0
  reportsTx : BitVec 16 := 0
  reportsRx : BitVec 16 := 0
  claims : BitVec 16 := 0          -- claims without takeover
  cfgCopies : BitVec 16 := 0
  droneT : List Nat := []          -- arrivals of the last 16 drones after their t_k, ns, newest first; 2^32 − 1 silent
  droneHb : List Nat := []
  tAt : Nat := 4294967295          -- arrival in this cycle
  hbAt : Nat := 4294967295
  deriving DecidableEq, Repr

/-! ## Time (chapter 10) -/

/-- A view of the timebase counter (R330), in units of 2^−32 tick; ρ in units of 2^−40. -/
structure View where
  t0 : Int := 0
  v0 : Int := 0
  rho : Int := 0
  deriving DecidableEq, Repr

/-- A control-time candidate of one port (R335 to R337). -/
structure Candidate where
  msg : TimeMsg
  bound : Nat                      -- path bound, ps
  err : Int                        -- V_rx minus the own view at t_rx, 2^−32 tick
  cycle : Nat                      -- modulation cycle of receipt
  lane1 : Bool := false            -- carried by the port's second lane
  deriving DecidableEq, Repr

/-- The time unit. Ports are keyed 0 E, 1 W, 2 U, 3 T. -/
structure TimeUnit where
  tbc0 : Nat := 0                  -- own time at which the TBC read 0
  running : Bool := false          -- the TBC counts (R329)
  ct : View := {}
  wall : View := {}
  ctValid : Bool := false
  wallValid : Bool := false
  wallHold : Bool := false
  wallRef : Bool := false
  wallFab : Bool := false          -- wall time from the fabric
  isRoot : Bool := false
  listening : Bool := false        -- the configured root listens (R345)
  listened : Bool := false         -- a candidate came while it listened
  gen : Nat := 0
  known : Bool := false            -- a generation has been seen or made
  root : Nat := 0                  -- address of the root
  rootM : Nat := 0                 -- its order distance
  cand : Tab (Option Candidate) := []
  src : Option Nat := none
  srcBound : Nat := 0
  srcHops : Nat := 0
  srcCross : Bool := false         -- the path crosses a twin link
  rInt : Int := 0                  -- servo integrator, 2^−40
  lastAcc : Option Int := none     -- TBC of the last accepted message, 2^−32 tick
  outRun : Nat := 0                -- consecutive messages beyond the step threshold
  goodRun : Nat := 0               -- consecutive accepted messages within 2 ns
  lastErr : Int := 0               -- last servo error, 2^−32 tick
  lossCycles : Nat := 0            -- cycles without a source
  claimCycles : Nat := 0           -- cycles without a candidate of the current generation (R346)
  asymSum : Int := 0               -- sum of V_rx(E) − V_rx(W), 2^−32 tick
  asymN : Nat := 0
  asymLast : Int := 0              -- last D
  asymEst : Int := 0               -- last a_est
  steps : BitVec 16 := 0
  outliers : BitVec 16 := 0
  yieldPending : Bool := false     -- the root gives up the role at the next boundary (R347)
  master : Option (BitVec 64) := none
  masterPort : Nat := 0
  lastAnn : Nat := 0               -- when the last Announce came
  stepsRemoved : Nat := 0
  following : Bool := false        -- the PTP servo follows its master
  pendStep : Option Int := none    -- offset refused or held, ns × 2^16
  withinRun : Nat := 0             -- consecutive Syncs within the limit
  lastOfs : Int := 0               -- last offset, ns × 2^16
  holdSince : Option Nat := none   -- start of the wall holdover
  lostMaster : Option Nat := none  -- since when no master
  refused : BitVec 16 := 0
  masters : BitVec 16 := 0         -- master changes
  meanPath : Nat := 0
  linkAt : Tab (Int × Nat) := []   -- last V_rx minus own view and bound, by lane
  deriving DecidableEq, Repr

/-! ## Recorder (chapter 11) -/

/-- A source sample. Instants are in 1/256 tick of control time. -/
structure RecSample where
  ix : Nat
  t : Int
  v : F32
  raw : Int
  tag : Nat
  ok : Bool
  deriving DecidableEq, Repr

/-- A recorded channel as armed; `period` in 1/256 tick. -/
structure RecChan where
  src : Nat
  raw : Bool
  red : Nat
  div : Nat
  period : Nat
  nPre : Nat
  nPost : Nat
  tagOr : Nat := 0                 -- OR of the tags of its samples
  first : Int := 0                 -- instant of its first sample, 1/256 tick
  deriving DecidableEq, Repr

/-- A trigger unit as armed, with its state. -/
structure RecUnit where
  role : Nat := 0                  -- 0 OFF, 1 TRIG, 2 QUAL
  src : Nat := 0xFFFF
  typ : Nat := 0
  dir : Nat := 0
  hi : F32 := 0
  lo : F32 := 0
  hys : F32 := 0
  cmp : Nat := 0
  w1 : Nat := 1
  w2 : Nat := 1
  k : Nat := 1
  ev : Nat := 0
  qual : Nat := 0
  holdoff : Nat := 0               -- µs
  seen : Int := -1                 -- instant of the last sample taken, 1/256 tick
  fresh : Bool := true             -- the next evaluable sample initialises the comparator
  high : Bool := false
  prev : Option RecSample := none
  highs : List (Int × Bool) := []  -- comparator state by sample instant, newest first
  edge : Option (Nat × Bool) := none       -- index and direction of the last transition
  zone : Nat := 0
  runt : Nat := 0                  -- candidate runt: 0 none, 1 from zone 0, 2 from zone 2
  held : Nat := 0                  -- samples in the present state since its entry
  hist : List RecSample := []      -- for SLEW
  delta : Option F32 := none       -- Δ at the last sample
  ignore : Int := -1               -- fires before this instant are ignored, 1/256 tick
  fired : Bool := false            -- since the last decision or the arm
  nFires : Word := 0               -- counts of ACQ.UNIT[u] (Table 16-10)
  nQual : Word := 0
  nHold : Word := 0                -- fires discarded by holdoff
  lastFire : Int := 0              -- last fire, 2^−32 tick
  lastQ : Nat := 0
  nBad : Word := 0                 -- samples not evaluable
  deriving DecidableEq, Repr

/-- A fire: its unit, its instant in 2^−32 tick, its detection instant in 1/256 tick, the slot that it falls in, the
interpolation, and the carried instant of a late one. -/
structure RecFire where
  unit : Nat
  inst : Int
  det : Int
  slot : Nat
  q : Nat
  late : Option Int := none
  deriving DecidableEq, Repr

/-- A record. -/
structure Record where
  id : Nat
  cause : Nat
  primary : Nat
  trig : Int                       -- t_trig, 2^−32 tick
  q : Nat
  late : Option Int
  truncated : Bool := false
  damaged : Bool := false
  holes : List (Nat × Nat) := []   -- bytes of the image in mapped-out pages: start, length
  wallV : Bool
  ctV : Bool
  wall : Stamp96
  nLate : Nat := 0
  nMissed : Nat
  nSeg : Nat
  pre : Nat
  post : Nat
  lAlign : Nat
  tbcDec : Nat
  cfg : BitVec 64
  chans : List RecChan
  data : List (List Word) := []    -- by channel, oldest first
  complete : Bool := false
  segs : List Nat                  -- segments of the pool
  deriving DecidableEq, Repr

/-- A trigger-bus line (R373 to R375). -/
structure BusLine where
  sentAt : Option Int := none      -- start of the last pulse, ticks of control time
  accepted : Option Int := none    -- last accepted edge
  nSent : Word := 0                -- counts of ACQ.BUS[n] (Table 16-10)
  nGlitch : Word := 0
  nValid : Word := 0
  nLate : Word := 0
  nIgnored : Word := 0             -- edges ignored within 0.5 µs
  width : Nat := 0                 -- last pulse width, ticks
  edge : Nat := 0                  -- TBC of the last edge
  deriving DecidableEq, Repr

/-- The recorder. -/
structure Rec where
  armed : Bool := false
  auto : Bool := false
  waiting : Bool := false          -- waits for free segments (R371)
  chans : List RecChan := []
  units : List RecUnit := []
  lAlign : Nat := 0                -- ns
  k : Nat := 1
  hist : Tab (List RecSample) := []        -- samples of each watched source, newest first
  next : Nat := 0                  -- first undecided slot
  eligible : Nat := 0              -- first slot that may start a record
  fires : List RecFire := []       -- in undecided slots
  forced : Option (CmdRef × Nat) := none   -- REC_FORCE, and the slot that was the first undecided one when it came
  current : Option Record := none
  closing : List Record := []      -- re-armed since their windows ended, not yet complete in DRAM (R370)
  rearmAt : Option Nat := none     -- slot in which AUTO re-arms
  lateTo : Nat := 0                -- slot up to which fires count as late ones of the last record
  records : List Record := []      -- complete, oldest first
  nextId : Nat := 1
  made : Nat := 0                  -- records since the arm
  nLate : Nat := 0
  nMissed : Nat := 0
  pool : Nat := 0                  -- segments of the pool
  used : List Nat := []            -- segments taken or lost
  disarm : Option (CmdRef × Bool) := none  -- REC_DISARM waits for the boundary; true: ABORT
  lines : Tab BusLine := []
  casts : List (Nat × Nat × Nat) := []     -- TRIGGER blocks seen: source, record, instant
  enabled : Nat := 0               -- control time from which samples count, ticks
  pulses : List (Nat × Int × Bool) := []   -- pulses due: line, instant in ticks of control time, late
  evSeq : BitVec 32 := 0           -- first event not yet seen by the units
  taken : Int := -1                -- samples up to this instant have been taken by REC tasks, 1/256 tick
  overflows : Word := 0            -- counts of ACQ (Table 16-10): staging overflows
  pagesLost : Word := 0
  fabTx : Word := 0                -- fabric triggers sent
  fabRx : Word := 0                -- received
  fabDrop : Word := 0              -- discarded
  sets : Tab (F32 × Nat × Nat) := []       -- last value of each set, its ok members and its members
  setNaN : Tab Word := []          -- sets yielding NaN
  deriving DecidableEq, Repr
/-! ## Parameters (chapter 12) -/

/-- One copy of the committed set on the boot flash (R406): its generation and values, keyed id × 65,536 + index, and
whether its digest is correct. -/
structure CfgCopy where
  gen : Nat := 0
  vals : Tab Int := []
  good : Bool := false
  deriving DecidableEq, Repr

/-- The parameter sets. An element that is not listed has its default. Keys are id × 65,536 + index. -/
structure Params where
  active : Tab Int := []
  waiting : List (Nat × Int) := []   -- committed elements whose Takes effect instant is still to come
  pending : Tab Int := []
  inForce : Nat := 0               -- first cycle with the Next cycle changes of the last commit (R406)
  copy0 : CfgCopy := {}
  copy1 : CfgCopy := {}
  current : Nat := 0               -- the copy marked current
  loaded : Bool := false           -- committed configuration loaded since reset
  lock : Bool := false             -- SYS.CONFIG_LOCK
  retCells : Nat := 0              -- cells retired in configuration, by own port (R463)
  retPorts : Nat := 0              -- cell ports retired (R126, R463)
  retReeds : Nat := 0
  retLanes : Nat := 0
  dlyRef : Tab Int := []           -- δ_ref per cell and class in configuration (R72), keyed 4 × port + class
  deriving DecidableEq, Repr

/-! ## Host interface (chapter 12) -/

/-- A queue pair (Table 12-4). -/
structure Qp where
  sqBase : BitVec 64 := 0
  cqBase : BitVec 64 := 0
  size : Word := 0x000F000F#32
  cfg : Word := 0
  irq : Word := 0
  sqTail : Nat := 0
  cqHead : Nat := 0
  sqHead : Nat := 0
  cqTail : Nat := 0
  phase : Bool := true
  error : Bool := false
  errCause : Nat := 0
  session : Option Nat := none     -- session bound
  level : Level := 0               -- level of that session
  discarded : Nat := 0             -- completions discarded, saturating at 255
  unsig : Nat := 0                 -- completions not yet signalled
  unsigAt : Nat := 0               -- when the oldest of them was written
  held : Option (Desc × Level) := none     -- descriptor held for a general slot, and the level it was fetched under (R396)
  drop : Bool := false             -- completions are discarded (R383, R386)
  deriving DecidableEq, Repr

/-- A command in flight (R396). `result` is there once it has completed and its completion is still to be written. -/
structure Inflight where
  gw : Option Nat
  qp : Nat
  tag : Nat
  opcode : Nat
  fenced : Bool := false
  args : List Byte := []           -- of the descriptor
  din : Bool := true               -- data in is written to the buffer
  buf : Nat := 0                   -- at this host address
  result : Option CmdResult := none
  deriving DecidableEq, Repr

/-- A TLS session (R384, R385). -/
structure Session where
  qp : Nat
  port1 : Bool                     -- on ETH1
  level : Level
  remote : Nat                     -- remote TCP port
  lastRecord : Nat := 0            -- instant of the last record in either direction
  idle : Nat := 300                -- sys.mbx_idle_s as it was when the session began, s
  deriving DecidableEq, Repr

/-- A command this gateway has tunnelled (R387). -/
structure Tunnelled where
  qp : Nat
  tag : Nat
  dest : Nat
  opcode : Nat
  din : Bool := true
  buf : Nat := 0
  due : Nat := 0                   -- instant of its TIMEOUT (R389)
  result : Option (Nat × CmdResult) := none   -- executing device and completion, once known
  deriving DecidableEq, Repr

/-- The host interface. -/
structure HostIf where
  qps : Tab Qp := []
  inflight : List Inflight := []
  tunnelled : List Tunnelled := []
  tunHeld : List (Nat × Nat × Level × Desc) := []   -- tunnelled descriptors that wait for a slot: gateway, its queue pair, level
  sessions : Tab Session := []
  refusedFull : Nat := 0
  tlsFails : Nat := 0
  err : BitVec 16 := 0             -- MBX.ERR
  errAddr : Word := 0
  lateReplies : BitVec 16 := 0
  tunTimeouts : BitVec 16 := 0
  lastTag : Tab Nat := []          -- MBX.LAST_TAG as restored at boot
  lastExact : Bool := false        -- from a final commit (R471)
  tags : Tab Nat := []             -- tag of the last completion written on each queue pair
  scratch : Tab Word := []
  evtFilter : Nat := 0
  hostTag : Word := 0
  msix : Tab Word := []            -- MSI-X table and pending bits, by word offset (R505)
  latched : Tab Word := []         -- _HI halves latched by a read of _LO, by address (R497)
  readout : Word := 0              -- value the last register read returned
  rr : Nat := 0                    -- queue pair of the present fetch turn (R396)
  rrN : Nat := 0                   -- descriptors fetched in it
  deriving DecidableEq, Repr

/-! ## Granule queues (chapter 12) -/

/-- An item (Table 12-12) with its payload. -/
structure Item where
  gran : Nat
  prod : Nat
  seq : BitVec 32
  payload : List Byte
  deriving DecidableEq, Repr

/-- A queue. -/
structure Queue where
  items : List Item := []          -- oldest first
  seq : BitVec 32 := 0             -- sequence number of the next item
  partials : Tab Nat := []         -- granules of the items being written, by producer
  stalled : Tab (List Byte) := []  -- producers stalled at full, with the item each is writing
  waitPop : Bool := false          -- a WAIT pop stalled
  overflow : Word := 0
  trunc : Word := 0
  mark : Bool := false             -- watermark flag
  deriving DecidableEq, Repr

/-- The queue manager. -/
structure Queues where
  q : Tab Queue := []
  free : Nat := 131072             -- free granules of the pool
  low : Bool := false              -- below que.pool_low since the last descent
  fcIn : Nat := 0                  -- FC_IN levels accepted
  fcOut : Nat := 0                 -- FC_OUT levels
  poolMin : Nat := 131072
  pushed : Word := 0
  popped : Word := 0
  eccCe : Word := 0                -- QMGR.ECC_CE and ECC_UE
  eccUe : Word := 0
  stalls : Word := 0
  deriving DecidableEq, Repr

/-! ## Safety unit (chapter 13) -/

/-- One safety channel (R418 to R437). Pins are keyed 2n + b for SINn (b = 1 for pin B), 16 and 17 for SRST_A and
SRST_B. -/
structure SafeChan where
  st : Nat := 1                    -- 0 NORMAL, 1 SAFE, 2 SAFE_FAULT (Table 13-3)
  request : Bool := true           -- block request (R419, R420)
  tested : Bool := false           -- start-up test passed (R420)
  raw : Tab Bool := []             -- level at the receiver
  since : Tab Nat := []            -- when that level began
  acc : Tab Bool := []             -- level accepted after the filter (R426)
  cfg : Nat := 0                   -- SAFECFG as read at start-up (R423)
  badReads : Nat := 0              -- consecutive rereads that differ from the seal (R423)
  srstOn : Tab (Option Nat) := []  -- when each SRST assertion now held was accepted
  srstLen : Tab (Option Nat) := [] -- length of each SRST assertion just released
  srstRel : Tab Nat := []          -- when that release was accepted
  srstVoid : Tab Bool := []        -- the assertion is ignored (R431)
  srstWait : Bool := false         -- assertions are ignored until both pins have been released (R431)
  edge : Option Nat := none        -- when this channel accepted a reset edge (R430)
  warmSince : Option Nat := none   -- since when no demand has been present (R432)
  deriving DecidableEq, Repr

/-- The safety unit: both channels and what they share. -/
structure Safe where
  a : SafeChan := {}
  b : SafeChan := {}
  pllLocked : Bool := false        -- the root PLL has locked since power-up (R420)
  powered : Bool := false          -- VIN_CORE above 0.80 V since POWER_UP (R489)
  upAt : Nat := 0                  -- instant of that POWER_UP
  cfgSealed : Option Nat := none        -- SAFECFG sealed for the power cycle (R423)
  pairSince : Tab Nat := []        -- start of each pair's disagreement at the pins (R428)
  pairOpen : Tab Bool := []        -- pair in disagreement at the pins
  latchedA : Tab Bool := []        -- channel A has latched that disagreement
  recovery : Option (Nat × Nat) := none   -- pair and step of the recovery of R429 (0: step 1 awaited)
  tripSince : Option Nat := none   -- when SOUT0 and SOUT1 went low, SIN7 awaited (R434)
  hold : Bool := false             -- maintenance hold established (R436)
  out : Nat := 0                   -- SOUT0 to SOUT3 commanded, [3:0] A, [7:4] B (R433)
  readback : Nat := 0              -- SOUT read-back levels, [3:0] A, [7:4] B (Table 16-9)
  rbErr : Nat := 0                 -- read-back mismatch per output (Table 13-9)
  safeOk : Bool := false
  cause : Nat := 0                 -- Table 13-6
  causeIdx : Nat := 0
  demands : BitVec 16 := 0
  lastChange : Nat := 0            -- instant of the last change of state
  leftNormal : Option Nat := none  -- instant at which the device was last not in NORMAL (R436)
  forcedFill : Nat := 0            -- ports channel A holds at fill after a failed block read-back (R437)
  reqAt : Option Nat := none       -- instant of the block request in force
  pairIn : Tab (BitVec 16) := []   -- entries into demand per pair (Table 16-9)
  pairDis : Tab (BitVec 16) := []  -- disagreements per pair
  tests : Tab (BitVec 16) := []    -- test pulses passed per output (R435)
  rbFaults : Tab (BitVec 16) := [] -- read-back faults per output
  resets : BitVec 16 := 0          -- reset edges accepted
  rejects : BitVec 16 := 0         -- reset edges rejected
  stuck : Word := 0                -- SRST assertions ignored (R431)
  testRes : Nat := 0               -- start-up results, [7:0] A, [15:8] B, 0 = pass (Table 16-9)
  marches : BitVec 16 := 0         -- background march passes
  perFreq : Word := 0              -- PER as channel B measured it, kHz
  isoFreq : Word := 0              -- ISO as channel A measured it, kHz
  log : List (Nat × Nat × Nat) := []   -- last 32 state changes, newest first: state, cause, instant
  silentA : Option Nat := none     -- since when channel B has not heard A (R437)
  silentB : Option Nat := none     -- since when channel A has not heard B
  differ : Option Nat := none      -- since when the channels' states disagree
  rejAt : Option Nat := none       -- instant of the last rejected reset edge (R430)
  everNormal : Bool := false       -- NORMAL or SAFE_FAULT has been entered since power-up (R432)
  deriving DecidableEq, Repr

/-! ## OTP and boot flash (chapter 14) -/

/-- OTP (Table 14-4); what is written per part at manufacture is 0 at reset (DESIGN CHOICE, log entry 138). -/
structure Otp where
  rootSecret : BitVec 256 := 0     -- device root secret, bytes 0x000 to 0x01F; all ones once erased (R456)
  fwKey : BitVec 256 := 0          -- firmware confidentiality key, bytes 0x020 to 0x03F
  keyRevoked : Nat := 0            -- [3:0] Belentah key slots revoked
  lifecycle : Nat := 1             -- 0 MANUFACTURE, 1 FIELD, 2 OWNED, 3 KILLED
  erasing : Bool := false          -- erasure in progress
  erased : Bool := false
  serial : BitVec 64 := 0
  rollback : Nat := 0              -- programmed bits of the thermometer (R449)
  owner : Tab (BitVec 384) := []   -- owner key hashes, slots 0 to 3
  ownerRevoked : Nat := 0          -- [3:0]
  deriving DecidableEq, Repr

/-- A firmware image as bytes (R446). -/
abbrev Image := List Byte

/-- The boot flash and the staging area. -/
structure Flash where
  slots : Tab Image := []          -- image slots 0 and 1; none when empty or invalid
  active : Nat := 0                -- slot named in the slot record (R444)
  staged : List Host.Cell := []    -- DRAM staging area (R447)
  verified : Option Nat := none    -- slot that FW_VERIFY wrote, with its image
  ownerImage : Bool := false       -- the verified image is of type OWNER (R451)
  byActivate : Bool := false       -- the slot was named by FW_ACTIVATE (R449)
  deriving DecidableEq, Repr

/-! ## Events, journal and faults (chapter 14) -/

/-- An event entry (Table 14-9); a continuation entry carries its 28 bytes in `cont`. -/
structure Entry where
  seq : BitVec 32
  code : Nat
  sev : Nat
  wallV : Bool
  ctV : Bool
  ext : Bool
  supp : Nat
  wall : Stamp96
  cycle : Nat
  tick : Nat
  arg : Word
  cont : Option (List Byte) := none
  deriving DecidableEq, Repr

/-- A journal commit in the memory on CS1 (R460). -/
structure Commit where
  seq : Nat
  count : Nat
  addr : Nat                       -- where its first entry lies
  tags : Tab Nat
  final : Bool                     -- a final commit under PWRFAIL_L (R471)
  deriving DecidableEq, Repr

/-- The event log, the journal buffer in retention SRAM and the journal memory. -/
structure Log where
  ring : List Entry := []          -- last 65,536 entries, oldest first
  nextSeq : BitVec 32 := 1         -- sequence number of the next entry; runs on across resets (R459)
  buffer : List Entry := []        -- entries not yet committed
  last : Tab Nat := []             -- last raise of a rate-limited event, by its key
  supp : Tab Nat := []             -- occurrences suppressed, by code
  cnt : Tab Word := []             -- SYS.EVCNT (Table 16-3)
  jmem : List Host.Cell := []      -- journal memory, unlisted bytes 0
  jsize : Nat := 1048576           -- its size, at least 1 MB (R461)
  jpos : Nat := 0                  -- next byte of the circular area
  commits : List Commit := []      -- commits whose record is correct, newest first
  commitSeq : Nat := 0
  works : Bool := true             -- journal memory working (R461)
  lastCommit : Nat := 0            -- instant the last commit ended
  running : Bool := false          -- a final commit is being written (R471)
  evtAck : Word := 0               -- MBX.EVT_ACK (R504)
  framedAt : Nat := 0              -- when the sessions last had an EVENT frame (Table 12-3)
  summary : List Byte := []        -- cast summary (R469), from its first byte
  finalN : Nat := 0                -- entries of the final commit under way (R471)
  stateSeq : Option Nat := none    -- commit whose state block the memory holds (R461, R471)
  deriving DecidableEq, Repr

/-- The two cast slots (R469). -/
structure Cast where
  no : Nat                         -- the model's number of the cast, which names its open bytes
  cause : Nat
  head : List Byte                 -- the 256-byte header
  damaged : Bool
  deriving DecidableEq, Repr

/-- Boot, straps and pins (chapters 14 and 17). -/
structure Boot where
  vin : Bool := false              -- VIN_CORE in its operating range
  ioRails : Bool := false          -- every I/O rail in range (R527)
  resetL : Bool := true            -- RESET_L asserted
  started : Bool := false          -- boot ROM running or past
  operational : Bool := false
  halted : Bool := false           -- halted by the ROM, or after a fatal fault
  failed : Bool := false           -- EV_SYS_BOOT_FAIL raised (R443)
  pcieBoot : Bool := false         -- the ROM serves the PCIe boot commands only
  fallback : Bool := false
  source : Nat := 0                -- BOOT_SEL (Table 14-1)
  slot : Nat := 0
  hasImage : Bool := false         -- a verified image runs
  twinSel : Bool := false          -- TWIN_SEL strap: 0 letter A, 1 letter B
  segId : Nat := 0                 -- SEG_ID[3:0]
  count : Word := 0                -- boot count in retention SRAM
  began : Nat := 0                 -- release of RESET_L
  version : Word := 0              -- SYS.FW_VERSION
  pairMinor : Nat := 0
  sv : Nat := 0
  manifest : BitVec 384 := 0
  compatMinor : Option Nat := none -- compatibility level towards the twin (R448)
  pwrfail : Bool := false          -- PWRFAIL_L accepted (R471)
  pwrfails : Word := 0
  finalDone : Bool := false        -- final commit written
  resetWaits : Bool := false       -- reset held until the commit record is written (R527)
  releaseWaits : Option BootInputs := none   -- RESET_L released meanwhile
  cfgBad : Bool := false           -- no configuration copy correct (R445)
  deriving DecidableEq, Repr

/-- Fatal faults and DRAM and SRAM errors (R463 to R470). -/
structure FaultSt where
  cause : Nat := 0                 -- last fatal cause (Table 14-11)
  arg : Nat := 0
  times : List Nat := []           -- fatal faults within 10 minutes
  stopped : Bool := false          -- frames, key blocks, drones and lease renewal stopped
  silent : Bool := false           -- no frame at all (R29)
  castHead : Option (List Byte) := none   -- a cast is being written: its header as of the fault
  castHurt : Bool := false         -- a page of the cast being written was lost (Table 14-12)
  castNo : Nat := 0                -- casts begun
  cast0 : Option Cast := none
  cast1 : Option Cast := none
  pages : Tab Nat := []            -- leaky bucket per DRAM page
  mapped : List (Nat × Nat) := []  -- mapped-out pages, with wall seconds (R465, Table 16-11)
  leaving : List Nat := []         -- pages mapped out at the next boundary of their user
  degraded : Bool := false
  dramPages : Nat := 4194304       -- DRAM fitted, in 4 KB pages
  dramPresent : Bool := false
  srEntries : Word := 0            -- entries of the DRAM into self-refresh (Table 16-10)
  scrubs : Nat := 0
  sramCe : Tab Nat := []           -- corrected errors per memory (R466)
  coefBad : List Nat := []         -- coefficient slots stopped until the next boot (R466)
  deriving DecidableEq, Repr

/-- Security monitor and debug (R451 to R457). -/
structure Sec where
  alarm : Nat := 0                 -- level in force (Table 14-7)
  present : Nat := 0               -- sources present, in the row order of Table 14-6
  raised : Nat := 0                -- sources raised since the last SEC_ALARM_CLEAR
  glitches : List Nat := []        -- supply glitches within 1 s
  sigFails : List Nat := []        -- signature failures within 24 h
  sigTotal : Word := 0
  unlockFails : List Nat := []     -- unlock failures within 24 h
  unlockTotal : BitVec 16 := 0
  supplyCnt : BitVec 16 := 0
  clockCnt : BitVec 16 := 0
  challenge : Option (BitVec 384) := none
  challengeAt : Nat := 0
  challenges : Nat := 0            -- challenges issued
  window : Bool := false           -- debug window open
  jtag : Bool := false
  dbgBase : Nat := 0               -- SYS.DBG_BASE
  dbgMem : Tab Word := []          -- words written through the debug window, by internal address (R501)
  log : List (Nat × Nat × Nat) := []   -- last 16 raises, newest first: row, level, instant
  tamperErase : Bool := true       -- sec.tamper_erase in force
  deriving DecidableEq, Repr

/-! ## Modes and power (chapter 15) -/

/-- Converter states, coded as SYS.STATUS [6:4]. -/
inductive Conv where
  | deEnergised | charging | blocked | deblocked | faultBlocked
  deriving DecidableEq, Repr

/-- Power states, coded as SYS.STATUS [3:2]. -/
inductive Power where
  | run | idle | rest
  deriving DecidableEq, Repr

/-- Test modes, coded as SYS.STATUS [16:15]. -/
inductive Test where
  | none | simcell | selftest
  deriving DecidableEq, Repr

/-- States of a domain (R485). -/
inductive DomState where
  | on | gated | ret | off
  deriving DecidableEq, Repr

/-- A power domain (Table 16-4). -/
structure Domain where
  st : DomState := .off
  clamps : Bool := true
  faulty : Bool := false
  diff : Int := 0                  -- difference to PD0, mV
  maxDiff : Int := 0
  engaged : Word := 0
  powerUps : Word := 0
  since : Nat := 0                 -- entry into the present state
  deriving DecidableEq, Repr

/-- An external regulator (R490). -/
structure Regulator where
  answering : Bool := false
  status : Nat := 0
  vin : Nat := 0
  vout : Nat := 0
  iout : Nat := 0
  temp : Nat := 0
  missedRun : Nat := 0
  missed : Word := 0
  faults : Word := 0
  lost : Bool := false
  faulted : Bool := false
  warned : Bool := false
  deriving DecidableEq, Repr

/-- A modelled cell of SIMCELL (R481): its capacitor voltage and the states of the modulators of its CV and CT streams. -/
structure SimCell where
  v : F32 := 0
  cv : BitVec 64 := 0
  ct : BitVec 64 := 0
  deriving DecidableEq, Repr

/-- A member of the expected set (R551): arm, segment index, twin B. -/
abbrev Member := Nat × Nat × Bool

/-- A transition or test mode at the lead, from its command to its apply cycle. -/
structure Transition where
  target : Conv
  test : Option Test
  apply : Nat                      -- c_a, 0 while step 1 of R478 is open
  agreed : Bool                    -- step 1 is over
  decided : Bool := false          -- step 4 has found the condition met
  mine : Bool := true              -- this twin sent the state unit
  cmd : Option CmdRef
  cause : Nat := 0
  deriving DecidableEq, Repr

/-- A state unit that waits for its apply cycle. -/
structure StateUnit where
  conv : Option Conv
  test : Option Test
  apply : Nat
  cause : Nat
  deriving DecidableEq, Repr

/-- The converter-state, power-state and test axes. -/
structure Mode where
  conv : Conv := .deEnergised
  power : Power := .run
  test : Test := .none
  units : List StateUnit := []     -- state units waiting for their apply cycle
  trans : Option Transition := none   -- pending at the lead
  acks : List AckMsg := []
  causes : Nat := 0                -- own block-cause mask (Table 15-3)
  causeAt : Tab Nat := []          -- cycle in which each cause came into force: k_r
  reqs : List (Nat × Nat × Nat) := []   -- block requests received: source, cause bit, k_r
  entry : Option (Power × CmdRef) := none   -- power state entered at the next boundary, and its command (R486)
  waking : Option Power := none    -- a wake sequence is running towards this state
  sim : Tab SimCell := []          -- the modelled cells of SIMCELL, by port (R481)
  simLive : Nat := 0               -- ports with a live cell head in SIMCELL (R481)
  testDone : Bool := false         -- SELFTEST has run (R481)
  testPass : Nat := 0
  fnEnable : Nat := 0x1F           -- mode.fn_enable in force (R482)
  doms : Tab Domain := []
  regs : Tab Regulator := []
  temps : Tab Int := []            -- TEMP0 to TEMP3, °C × 128
  tempOk : Nat := 0
  tjWarned : Bool := false
  tjTripped : Bool := false
  uvEvents : Word := 0             -- VIN_CORE undervoltage events
  restAt : Option Nat := none      -- when REST was entered with a timer running
  deriving DecidableEq, Repr

/-! ## The device -/

/-- Something the device has put out: the model's own trace of its outputs, newest last (DESIGN CHOICE, log entry 6). -/
inductive Out where
  | dma (addr : Nat) (bytes : List Byte)                                          -- written into host memory (R392)
  | fab (lane start : Nat) (b : FabBlock) (line : List Bool)                      -- a block's start on a lane, in 10 ps of own time; its line bits
  | made (u : FabUnit)                                                            -- a MESSAGE or BULK unit of the device's own
  | unit (u : FabUnit)                                                            -- delivered to its function
  | training (lane : Nat)                                                         -- training burst of R273
  | frame (port : Nat) (f : DownFrame) (start : Nat) (line : List Bool)           -- start in 0.05 ns of own time; its line bits
  | hbFrame (f : HbFrame) (line : List Bool)                                      -- on HB_TX
  | busPulse (line : Nat) (start : Int) (ticks : Nat)                             -- on the trigger bus (R374)
  | fill (port : Nat)                                                             -- fill only from here on
  | item (q : Nat) (i : Item)                                                     -- popped by a consumer
  | itemNone (q : Nat)                                                            -- EMPTY to a TRY pop (R411)
  | irq (vector : Nat)
  | sessFrame (sess : Nat) (bytes : List Byte)                                    -- a session frame, header and body (R385)
  | sessClose (sess : Nat)
  | sessRefused (port1 : Bool)                                                    -- close_notify to a session that is not bound (R385)
  | pmbClear (reg : Nat)
  | uart (code : Nat)                                                             -- an event on the UART (Table 14-1)
  | testPulse (output : Nat) (b : Bool)
  deriving DecidableEq, Repr

/-- Everything of the device but the safety unit, the OTP and the boot flash. -/
structure Dev where
  clk : Nat := 0                   -- own time, TBASE ticks (DESIGN CHOICE, log entry 4)
  openIx : Nat := 0                -- how many open values have been drawn (DESIGN CHOICE, log entry 1)
  out : List Out := []
  log : Log := {}
  boot : Boot := {}
  flt : FaultSt := {}
  sec : Sec := {}
  par : Params := {}
  host : HostIf := {}
  que : Queues := {}
  tim : TimeUnit := {}
  mode : Mode := {}
  fab : Fabric := {}
  cyc : Cyc := {}
  meas : Meas := {}
  cp : CellPorts := {}
  down : Tab Downlink := []        -- transmitters of the cell ports
  twin : Twin := {}
  sar : Sar := {}
  ctl : Ctl := {}
  acq : Rec := {}
  deriving DecidableEq, Repr

/-- The state: the safety unit, the OTP, the boot flash, the rest of the device, and the commands that wait. -/
structure State where
  safe : Safe := {}
  otp : Otp := {}
  flash : Flash := {}
  dev : Dev := {}
  pending : List Instr := []
  deriving DecidableEq, Repr

/-- The machine before power is applied, with nothing waiting: every reset of the part starts from POWER_UP
(DESIGN CHOICE, log entry 5). -/
def State.reset : State := {}

end Sys2Proof.Machine
end

