-- ==== Sys2Proof/WellFormed.lean ====
section
/-!
DEFINITION. WellFormed.lean: the commands that name only objects the device has. A command that does not is answered by the fault
noSuchObject (Laws/WellFormed.lean); an argument of a host command that is out of range is no such case: the command completes
with the status of its own checks (R399). DRAM_ERROR's page is held against the memory fitted, which is state.
-/
namespace Sys2Proof

/-- The memory exists (R463). -/
def sramOk : SramMem → Bool
  | .reedLocal n => n < 64
  | .granulePool q => q < 1024
  | .coefficient slot => slot < 256
  | _ => true

/-- The pin exists (Table 13-1). -/
def SafePin.ok : SafePin → Bool
  | .sin n _ => n < 8
  | .srst _ => true
  | .cfg i => i < 12

/-- An item of 1 to 64 granules (R409, Table 12-12). -/
def itemOk (payload : List Byte) : Bool := 1 ≤ payload.length && payload.length ≤ 4096

/-- A state unit that names one state of Table 15-2 or one test mode (R476, R481). -/
def stateMsgOk (m : StateMsg) : Bool :=
  match m.conv, m.test with
  | some v, none => v < 5
  | none, some v => v < 3
  | _, _ => false

/-- A change of a cell that names a port (R304). -/
def twinCmdOk : TwinCmd → Bool
  | .change c | .changeAck c => c.port < 48
  | _ => true

/-- Every object that the command names exists. -/
def Instr.wf : Instr → Bool
  | .resetLRelease _ b => b.straps.length == 8
  | .fatalFault _ cause _ => 1 ≤ cause && cause ≤ 7
  | .coreWatchdogExpiry _ core => core < 4
  | .castWriteDone _ b => b.straps.length == 8
  | .sramCorrectedError _ mem => sramOk mem
  | .sramDoubleError _ mem => sramOk mem
  | .tamperSource _ row _ => row < 9
  | .safetyStartupTestDone _ _ cfg _ => cfg < 4096
  | .safetyInputChange _ _ pin _ => pin.ok
  | .inputFilterAccept _ _ pin => pin.ok
  | .safetyBlockFrameStart _ port => port < 48
  | .discrepancyLatch _ pair => pair < 8
  | .channelBDiscrepancy _ pair => pair < 8
  | .readbackFault _ output _ => output < 4
  | .soutTestPulse _ output _ _ => output < 4
  | .safecfgReread _ _ cfg => cfg < 4096
  | .modulationCycleStart _ k => k < 2 ^ 48
  | .pk4Task _ g => g < 12
  | .kbTask _ arm => arm < 6
  | .dly4Task _ g => g < 12
  | .cap4Task _ g => g < 12
  | .keyBlockReceive _ lane b _ => lane < 6 && b.arm < 8 && b.seg < 16
  | .keyExchangeDeadline _ arm => arm < 6
  | .twinFillDeadline _ arm => arm < 6
  | .countTask _ arm => arm < 6
  | .rank4Task _ g => g < 12
  | .armrecTask _ arm => arm < 6
  | .build4Task _ g => g < 12
  | .bandTask _ arm => arm < 6
  | .lawTask _ n => n < 5
  | .reedSteal _ reed n => reed < 64 && 1 ≤ n && n ≤ 8
  | .fallbackGeneratorFrame _ port => port < 48
  | .ctrlFrameSend _ port => port < 48
  | .taskWatchdog _ reed _ => reed < 64
  | .uplinkDataFrame _ port _ _ => port < 48
  | .uplinkRespFrame _ port _ _ _ => port < 48
  | .uplinkFrameInvalid _ u => u.port < 48
  | .uplinkFrameMissing _ port => port < 48
  | .portRetireFill _ port => port < 48
  | .portStageExit _ port => port < 48
  | .portStageTimeout _ port => port < 48
  | .retrainTimeout _ port => port < 48
  | .phaseTrackStep _ port => port < 48
  | .portRealign _ port => port < 48
  | .healthWarnPersist _ port => port < 48
  | .bypassUnconfirmed _ port => port < 48
  | .cellBlockRelease _ epoch => 1 ≤ epoch
  | .refBlockRelease _ epoch _ => 1 ≤ epoch
  | .streamPerm _ ch => ch < 104
  | .bankSwapStart _ ch => ch < 104
  | .sarConversionEnd _ adc raw _ => adc < 4 && decide (-32768 ≤ raw) && decide (raw ≤ 32767)
  | .sarPassStart _ n => n < 4
  | .sarPassEnd _ n => n < 4
  | .sarCalComplete _ adc => adc < 4
  | .wantReceive _ lane masks => (lane == 4 || lane == 5) && masks.length ≤ 3
  | .refRecReceive _ lane b => lane < 8 && b.present < 64
  | .armRecReceive _ lane r => lane < 8 && r.arm < 6 && lane / 2 != 2
  | .droneReceive _ lane b => (lane == 4 || lane == 5) && 1 ≤ b.role && b.role ≤ 3
  | .hbFrameReceive _ f => 1 ≤ f.role && f.role ≤ 3 && f.cycle < 2 ^ 32 && f.lease < 2 ^ 16
  | .refFwdReceive _ lane _ m _ => (lane == 4 || lane == 5) && m < 8
  | .repairReqReceive _ lane low _ => (lane == 4 || lane == 5) && low < 16384
  | .repairDataReceive _ lane low _ => (lane == 4 || lane == 5) && low < 16384
  | .timeBlockSend _ port _ => port < 3
  | .timeBlockReceive _ lane _ _ => lane < 8 && lane / 2 != 2
  | .helloReceive _ lane _ => lane < 8
  | .delayBlockSend _ lane _ => lane < 8
  | .delayBlockReceive _ lane _ _ => lane < 8
  | .linkStateReceive _ lane _ _ => lane < 4
  | .ackReceive _ port seq _ => port < 4 && seq < 256
  | .ackTimeout _ port => port < 4
  | .laneCmdRetrain _ lane => lane < 8
  | .laneCmdDown _ lane => lane < 8
  | .laneCmdIdleReq _ lane => lane < 8
  | .fabricBadBlock _ lane _ => lane < 8
  | .laneLockLoss _ lane => lane < 8
  | .laneSignalDetect _ lane => lane < 8
  | .laneStageExit _ lane _ => lane < 8
  | .laneStageTimeout _ lane => lane < 8
  | .fastRetrainTimeout _ lane => lane < 8
  | .retrainFailTimeout _ lane => lane < 8
  | .linkBringupTimeout _ port => port < 4
  | .laneIdleTimer _ lane => lane < 8
  | .elasticBlockReceive _ lane _ _ _ _ => lane < 8
  | .skipSend _ lane => lane < 8
  | .freqEstimate _ lane => lane < 8
  | .messageUnitReceive _ lane seq u => lane < 8 && seq < 256 && 1 ≤ u.len && u.len ≤ (if u.bulk then 4194304 else 65536) && u.hops < 256
  | .tunnelCommandReceive _ gw qp level _ => gw < 4096 && qp < 8 && level < 3
  | .tunnelReplyReceive _ qp _ dev _ => qp < 8 && dev < 4096
  | .tunnelTimeout _ qp _ => qp < 8
  | .twinCmdReceive _ u => twinCmdOk u
  | .stateUnitReceive _ m => stateMsgOk m
  | .cancelUnitReceive _ _ cause => cause < 65536
  | .blockRequestReceive _ m => m.bit < 13
  | .triggerBlockReceive _ lane _ => lane < 8
  | .followingError _ ch => ch < 7
  | .busPulseSend _ line => line < 4
  | .busEdgeReceive _ line _ _ => line < 4
  | .queuePushEnd _ q prod payload => q < 1024 && prod < 256 && itemOk payload
  | .queuePop _ q _ => q < 1024
  | .waitPopComplete _ q => q < 1024
  | .producerStallResume _ q prod => q < 1024 && prod < 256
  | .fcInChange _ n _ => n < 4
  | .descriptorFetch _ qp _ _ => qp < 8
  | .completionWrite _ _ qp _ => qp < 8
  | .interruptSignal _ qp => qp < 8
  | .tlsHandshakeDone _ _ role remote => role < 3 && remote < 65536
  | .sessionFrameReceive _ sess _ => sess < 4
  | .pingReceive _ sess => sess < 4
  | .sessionIdleTimeout _ sess => sess < 4
  | .sessionClose _ sess => sess < 4
  | .sqTailWrite _ qp _ => qp < 8
  | .cqHeadWrite _ qp _ => qp < 8
  | .qpEnable _ qp _ => qp < 8
  | .qpDisable _ qp _ => qp < 8
  | .chresLoRead _ ch => ch < 24
  | .selftestComplete _ passMask => passMask < 32
  | .sysReset _ _ _ b => b.straps.length == 8
  | .fwActivate _ _ b => b.straps.length == 8
  | .pmbusPoll _ reg _ => reg < 8
  | .domainFault _ dom _ => 1 ≤ dom && dom < 12
  | .domainRestore _ dom => 1 ≤ dom && dom < 12
  | .portReceiverLockLoss _ port => port < 48
  | .ackSend _ port => port < 4
  | .ioRailsInRange _ b => b.straps.length == 8
  | .powerUp .. | .vinCoreUndervoltage .. | .rootPllLock .. | .refclkFault .. | .resetLAssert .. | .bootOperational ..
  | .bootTimeout .. | .pwrfailAssert .. | .finalCommitDone .. | .pwrfailRelease .. | .journalCommit .. | .dramError ..
  | .dramPageDecay .. | .dramScrub .. | .challengeExpiry .. | .srstStuck .. | .warmRestart .. | .edmTimeout ..
  | .holdEstablish .. | .crossMonitorExchange .. | .lockstepMismatch .. | .clockCrossCheckFail ..
  | .blockReadbackCheck .. | .backgroundMarch .. | .digestTask .. | .recTask .. | .commandDeadline ..
  | .selftestSlot .. | .repairRequestSend .. | .repairDeadline .. | .sarRefSettled .. | .sourceLossTimeout ..
  | .rootListenExpiry .. | .rootClaim .. | .ctWrapNear .. | .timeRelaySend .. | .timeRelayReceive ..
  | .ptpSyncReceive .. | .announceReceive .. | .announceTimeout .. | .holdoverLimit .. | .healthReportSend ..
  | .healthReportReceive .. | .paramUnitReceive .. | .twinApplyReceive .. | .twinApplyTimeout ..
  | .acknowledgementReceive .. | .blockRequestSend .. | .convStateDecide .. | .joinTimeout .. | .snapshotComplete ..
  | .syncWindowExpiry .. | .lawSnapshot .. | .feedbackHoldExpiry .. | .lawSendDeadline .. | .identEnd ..
  | .recordSlotDecision .. | .recordComplete .. | .pcieReset .. | .tlsHandshakeFail .. | .wakeWrite ..
  | .evtAckWrite .. | .tbcLoRead .. | .healthRegisterLatchRead .. | .pairLoRead .. | .rcFieldRead ..
  | .registerWrite .. | .barInvalidAccess .. | .nop .. | .devInfo .. | .eventRead .. | .journalRead .. | .healthRead ..
  | .convState .. | .modePower .. | .modeTest .. | .paramGet .. | .paramSet .. | .paramCommit .. | .paramDiscard ..
  | .paramLock .. | .paramList .. | .cellRetire .. | .cellRestore .. | .measCoefLoad .. | .measBankSwap ..
  | .measSync .. | .sarCal .. | .ctlSource .. | .ctlSetpoint .. | .ctlRefPush .. | .ctlIdent .. | .cycReedRestore ..
  | .fabLaneRestore .. | .dupHandover .. | .dupResync .. | .timeWallStep .. | .recArm .. | .recDisarm .. | .recForce ..
  | .recRead .. | .recRelease .. | .recList .. | .queInfo .. | .quePop .. | .quePush .. | .queFlush .. | .safeStatus ..
  | .fwStage .. | .fwVerify .. | .secAttest .. | .secIdentity .. | .secAlarmClear .. | .castRead .. | .castClear ..
  | .dbgUnlock .. | .wakeSource .. | .wakeComplete .. | .restTimerExpiry .. | .vinCoreLoss .. => true

end Sys2Proof
end

