-- ==== Sys2Proof/Machine/Base.lean ====
section
/-!
DEFINITION. Machine/Base.lean: what every operation reads: open values, outputs, spans of own time, parameters
(R403 to R408), time views (R329 to R333), the device's place in the converter (R20, R35, R36, R551), its cell ports,
lanes and links.
-/
namespace Sys2Proof.Machine

open Sys2Proof

/-- What a step answers. -/
abbrev Answer := Host.Outcome State Fault Refusal

/-- An open value of `w` bits (DESIGN CHOICE, log entry 1). -/
def Dev.freeVal (d : Dev) (w : Nat) : BitVec w := Config.freeValue w d.openIx

/-- The device after an open value has been drawn. -/
def Dev.drawn (d : Dev) : Dev := { d with openIx := d.openIx + 1 }

/-- The device with a further output. -/
def Dev.emit (d : Dev) (o : Out) : Dev := { d with out := d.out ++ [o] }

/-! ## Spans of own time, in TBASE ticks of 1.6 ns -/

def ticksOfNs (ns : Nat) : Nat := ns * 5 / 8
def ticksOfUs (us : Nat) : Nat := us * 625
def ticksOfMs (ms : Nat) : Nat := ms * 625000
def ticksOfS (s : Nat) : Nat := s * 625000000

/-! ## Parameters (R403 to R408) -/

/-- The seal code of a SAFECFG value (R424). -/
def sealCode (cfg : Nat) : Nat :=
  let n := fieldN cfg 0 4 + fieldN cfg 4 4 + fieldN cfg 8 4
  (0xF ^^^ (n % 16)) * 4096 + cfg % 4096

/-- The row of a parameter. -/
def paramDef? (id : Nat) : Option ParamDef := paramTable.find? (fun p => p.id == id)

/-- The key of a parameter element. -/
def pkey (id i : Nat) : Nat := id * 65536 + i

/-- The default of element `i`, from the straps and the sealed configuration where the table says so. -/
def Dev.paramDefault (d : Dev) (cfgSeal : Nat) (p : ParamDef) (i : Nat) : Int :=
  match p.dflt with
  | .fill v => v
  | .each vs => vs.getD i 0
  | .segId => d.boot.segId
  | .portGroups =>
    let on := fun g => d.par.active.get 0 (pkey P.mod_pg_arm g) != 0xFF
    (maskOf 48 (fun n => on (n / 16)) : Nat)
  | .cvct => if d.par.active.get 0 (pkey P.link_double_rate 0) = 1 then 3 else 0
  | .rmdDelay => if d.par.active.get 0 (pkey P.meas_mclk_rate (i / 4)) = 1 then 6 else 12
  | .sarQueue => (Config.sarQueueDefault i).toNat
  | .safeCfg => cfgSeal % 4096
  | .safeSeal => cfgSeal
  | .safeField lo w => fieldN cfgSeal lo w

/-- Element `i` of parameter `id` in the active set. -/
def Dev.pvi (d : Dev) (id i : Nat) : Int :=
  match d.par.active.find (pkey id i) with
  | some v => v
  | none => match paramDef? id with
    | some p => d.paramDefault 0 p i
    | none => 0

/-- A scalar parameter in the active set. -/
def Dev.pv (d : Dev) (id : Nat) : Int := d.pvi id 0
/-- A scalar parameter that is not negative. -/
def Dev.pn (d : Dev) (id : Nat) : Nat := (d.pvi id 0).toNat
def Dev.pni (d : Dev) (id i : Nat) : Nat := (d.pvi id i).toNat
/-- A binary32 parameter. -/
def Dev.pf (d : Dev) (id : Nat) : F32 := BitVec.ofInt 32 (d.pvi id 0)
def Dev.pfi (d : Dev) (id i : Nat) : F32 := BitVec.ofInt 32 (d.pvi id i)

/-- T_mod in TBASE ticks (R23, R332). -/
def Dev.tModTicks (d : Dev) : Nat := ticksOfNs (d.pn P.mod_t_mod_ns)

/-! ## Time views (R329 to R333) -/

/-- The timebase counter. -/
def Dev.tbc (d : Dev) : Nat := if d.tim.running then (d.clk - d.tim.tbc0) % 2 ^ 64 else 0

/-- A view at a TBC value, both in units of 2^−32 tick (R330). -/
def View.at (v : View) (t : Int) : Int := v.v0 + (t - v.t0) + (t - v.t0) * v.rho / 2 ^ 40

/-- The view with its anchor moved to `t` and its rate set: the value at `t` does not step. -/
def View.rate (v : View) (t rho : Int) : View := ⟨t, v.at t, rho⟩

/-- The TBC in units of 2^−32 tick. -/
def Dev.tbc32 (d : Dev) : Int := (d.tbc : Int) * 2 ^ 32

/-- Control time now, in units of 2^−32 tick. -/
def Dev.ctNow (d : Dev) : Int := d.tim.ct.at d.tbc32

/-- The modulation cycle of a control-time value, and the tick within it (R332). -/
def Dev.ctCycle (d : Dev) (v : Int) : Nat := ((v / 2 ^ 32) / (max d.tModTicks 1 : Nat)).toNat % 2 ^ 48
def Dev.ctTick (d : Dev) (v : Int) : Nat := ((v / 2 ^ 32) % (max d.tModTicks 1 : Nat)).toNat

/-- A wall-time value as Stamp96 (R333): seconds, nanoseconds and 2^−16 ns of V ticks of 1.6 ns. -/
def stampOf (v : Int) : Stamp96 :=
  let f := (v * 8 / (5 * 2 ^ 16)).toNat          -- 2^−16 ns
  let ns := f / 65536
  BitVec.ofNat 96 ((ns / 1000000000) * 2 ^ 48 + (ns % 1000000000) * 2 ^ 16 + f % 65536)

/-- The view value that a Stamp96 names. -/
def ofStamp (s : Stamp96) : Int :=
  let n := s.toNat
  (((n >>> 48) * 1000000000 + (n >>> 16) % 2 ^ 32) * 65536 + n % 65536 : Nat) * (5 * 2 ^ 16) / 8

/-- Wall time now as Stamp96. -/
def Dev.wallNow (d : Dev) : Stamp96 := stampOf (d.tim.wall.at d.tbc32)

/-- The device address (R512). -/
def Dev.addr (d : Dev) : Nat := d.pn P.sys_dev_addr


/-! ## Place in the converter (R20, R21, R35, R551) -/

def Dev.port (d : Dev) (p : Nat) : CellPort := d.cp.ports.get {} p
def Dev.setPort (d : Dev) (p : Nat) (x : CellPort) : Dev := { d with cp := { d.cp with ports := d.cp.ports.set p x } }
def Dev.dl (d : Dev) (p : Nat) : Downlink := d.down.get {} p
def Dev.setDl (d : Dev) (p : Nat) (x : Downlink) : Dev := { d with down := d.down.set p x }
def Dev.lane (d : Dev) (n : Nat) : Lane := d.fab.lanes.get {} n
def Dev.setLane (d : Dev) (n : Nat) (l : Lane) : Dev := { d with fab := { d.fab with lanes := d.fab.lanes.set n l } }
def Dev.link (d : Dev) (p : Nat) : Link := d.fab.links.get {} p
def Dev.setLink (d : Dev) (p : Nat) (l : Link) : Dev := { d with fab := { d.fab with links := d.fab.links.set p l } }
def Dev.armSt (d : Dev) (a : Nat) : ArmState := d.cyc.arms.get {} a
def Dev.setArm (d : Dev) (a : Nat) (x : ArmState) : Dev := { d with cyc := { d.cyc with arms := d.cyc.arms.set a x } }

/-- The arm and segment index of a port (R35, R36). -/
def Dev.portArm (d : Dev) (p : Nat) : Nat := d.pni P.mod_pg_arm (p / 16)
def Dev.portSeg (d : Dev) (p : Nat) : Nat := d.pni P.mod_pg_segidx (p / 16)

/-- The arms this device serves, in port-group order. -/
def Dev.arms (d : Dev) : List Nat := ([0, 1, 2].map (d.pni P.mod_pg_arm ·)).filter (· < 6) |>.eraseDups

/-- The segment index of the device in an arm it serves. -/
def Dev.segIn (d : Dev) (a : Nat) : Nat :=
  ((([0, 1, 2].filter fun g => d.pni P.mod_pg_arm g == a).head?).map (d.pni P.mod_pg_segidx ·)).getD 0

/-- Segments of an arm (R551). -/
def Dev.nSeg (d : Dev) (a : Nat) : Nat := max 1 (d.pni P.mode_arm_nseg a)

/-- Key-exchange deadline after t_k, ps (R53). -/
def tKxPs (n : Nat) : Nat := 350000 + 68000 * n

/-- The arm that a device's port groups serve (R35). -/
def Dev.armOf (d : Dev) (g : Nat) : Nat := d.pni P.mod_pg_arm g

/-- The arm that the device states in its HELLO and reads its ring by: that of its first port group in use. Where its
groups serve several arms the manual names none (DESIGN CHOICE, log entry 106). -/
def Dev.firstArm (d : Dev) : Nat := (([0, 1, 2].map d.armOf).find? (· < 6)).getD 0xFF

/-- The device is in an arm ring: every port group in use serves one arm, and some arm of the converter has more than one
segment. No parameter of the manual names the topology of R20 (DESIGN CHOICE, log entry 107). -/
def Dev.armRing (d : Dev) : Bool :=
  let a := d.firstArm
  (List.range 3).all (fun g => d.armOf g == a || d.armOf g == 0xFF) && (List.range 6).any fun b => decide (1 < d.pni P.mode_arm_nseg b)

/-! ## Twin letter (R301, R526) -/

def Dev.duplex (d : Dev) : Bool := d.pv P.dup_mode == 1
/-- The device's letter is B: TWIN_SEL has no effect while dup.mode is SOLO (R301, R526). -/
def Dev.letterB (d : Dev) : Bool := d.duplex && d.boot.twinSel

/-! ## Lanes and links (R262, R272) -/

/-- The other lane of the port. -/
def otherLane (n : Nat) : Nat := if n % 2 = 0 then n + 1 else n - 1

/-- The port is enabled (R296). -/
def Dev.portEnabled (d : Dev) (p : Nat) : Bool := bitN (d.pn P.fab_port_enable) p

/-- The lanes of a port that carry traffic. -/
def Dev.upLanes (d : Dev) (p : Nat) : List Nat :=
  [2 * p, 2 * p + 1].filter fun n => (d.lane n).stage == .up && !(d.lane n).off

/-- The device at the far end of a port, as its lanes' HELLO blocks name it. -/
def Dev.partner (d : Dev) (p : Nat) : Option Ident := (d.upLanes p).findSome? fun n => (d.lane n).partner

def Dev.linkUp (d : Dev) (p : Nat) : Bool := decide (0 < (d.link p).width)

end Sys2Proof.Machine
end

