-- ==== Sys2Proof/Machine/Line.lean ====
section
/-!
DEFINITION. Machine/Line.lean: the bits of the cell link, the HB path and fabric blocks: CRCs, scramblers and stuffing
(R88 to R92, R266, R267, R312, R314).
-/
namespace Sys2Proof.Machine

open Sys2Proof

/-- The `w` bits of `x`, most significant first. -/
def bitsMS : Nat → Nat → List Bool
  | 0, _ => []
  | w + 1, x => x.testBit w :: bitsMS w x

/-- The number that a bit list spells, most significant bit first. -/
def natMS (bs : List Bool) : Nat := bs.foldl (fun n b => 2 * n + bit01 b) 0

/-- A CRC of width `w` over bits in transmission order, no reflection and no final XOR. -/
def crcBits {w : Nat} (poly init : BitVec w) (bs : List Bool) : BitVec w :=
  bs.foldl (fun c b => if c.msb != b then (c <<< 1) ^^^ poly else c <<< 1) init

/-- CRC-16 (R91). -/
def crc16 (bs : List Bool) : BitVec 16 := crcBits 0x1021#16 0xFFFF#16 bs
/-- CRC-32 of a data block (R267). -/
def crc32 (bs : List Bool) : BitVec 32 := crcBits 0x04C11DB7#32 0xFFFFFFFF#32 bs
/-- CRC-64 of the output digest (R314). -/
def crc64 (bs : List Bool) : BitVec 64 := crcBits 0x42F0E1EBA9EA3693#64 0#64 bs

/-- Bytes as bits, each most significant bit first. -/
def byteBits (bs : List Byte) : List Bool := bs.flatMap fun b => bitsMS 8 b.toNat

/-- The scrambler of R89: bit 0 of the register is the last line bit. -/
def scramble17 : BitVec 17 → List Bool → List Bool × BitVec 17
  | r, [] => ([], r)
  | r, b :: bs =>
    let s := (b != r.getLsbD 12) != r.getLsbD 16
    let (o, r') := scramble17 ((r <<< 1) ||| BitVec.ofNat 17 (bit01 s)) bs
    (s :: o, r')

/-- The scrambler of a fabric lane (R266). -/
def scramble31 : BitVec 31 → List Bool → List Bool × BitVec 31
  | r, [] => ([], r)
  | r, b :: bs =>
    let s := (b != r.getLsbD 27) != r.getLsbD 30
    let (o, r') := scramble31 ((r <<< 1) ||| BitVec.ofNat 31 (bit01 s)) bs
    (s :: o, r')

/-- Stuffing after `n` equal bits: the inserted bit counts as the first of the next run (R90, R266). -/
def stuff (n : Nat) : Bool → Nat → List Bool → List Bool
  | _, _, [] => []
  | last, run, b :: bs =>
    let run := if b == last ∧ 0 < run then run + 1 else 1
    if run = n then b :: (!b) :: stuff n (!b) 1 bs else b :: stuff n b run bs

/-- The marker of the cell link (R88) and of the fabric (R266). -/
def marker10 : List Bool := bitsMS 10 0b0111111110
def marker16 : List Bool := bitsMS 16 0b0111111111111110

end Sys2Proof.Machine

namespace Sys2Proof

open Sys2Proof.Machine

/-- The code of a cell command state (Table 02-1). -/
def CellCmd.code : CellCmd → Nat
  | .byp => 0
  | .pos => 1
  | .neg => 2
  | .blk => 3

/-- The code of a CTRL operation (Table 03-6). -/
def CtrlOp.code : CtrlOp → Nat
  | .nop => 0
  | .read => 1
  | .write => 2
  | .echo => 3
  | .syncEpoch => 4
  | .syncCycle => 5
  | .start => 6
  | .reset => 7

/-- The body of a command frame before its CRC (Table 03-2). -/
def CmdFrame.fields (f : CmdFrame) : List Bool :=
  [false, f.second.isSome, f.sb, f.h] ++ bitsMS 6 f.epoch ++ [f.fire] ++ bitsMS 8 f.seq ++ bitsMS 2 f.s1.code ++ bitsMS 16 f.a1
    ++ (match f.second with
      | some (s, a) => bitsMS 2 s.code ++ bitsMS 16 a
      | none => [])

/-- The body of a downlink frame before its CRC. -/
def DownFrame.fields : DownFrame → List Bool
  | .cmd f => f.fields
  | .ctrl f => [true, false, f.sb, f.h] ++ bitsMS 6 f.epoch ++ bitsMS 4 f.op.code ++ bitsMS 8 f.addr ++ bitsMS 16 f.data

/-- The body of a frame with its CRC. -/
def DownFrame.body (f : DownFrame) : List Bool := f.fields ++ bitsMS 16 (crc16 f.fields).toNat

/-- The frame with the safety-block bit `sb`. -/
def DownFrame.withSb (sb : Bool) : DownFrame → DownFrame
  | .cmd f => .cmd { f with sb := sb }
  | .ctrl f => .ctrl { f with sb := sb }

/-- An ECHO frame, whose start is the t_tx of R102. -/
def DownFrame.isEcho : DownFrame → Bool
  | .cmd _ => false
  | .ctrl f => f.op == .echo

/-- The line bits of a frame from scrambler state `r`, marker included, and the state after it. -/
def DownFrame.line (f : DownFrame) (r : BitVec 17) : List Bool × BitVec 17 :=
  let (b, r') := scramble17 r f.body
  (marker10 ++ stuff 6 false 0 b, r')

/-- Fill of `n` bits after a last bit: alternating, the complement first (R88). -/
def fillBits (last : Bool) (n : Nat) : List Bool := (List.range n).map fun i => last != (i % 2 == 0)

/-! ## Uplink (R88 to R91, R95) -/

/-- The samples of a stream, sample 0 first. -/
def sampleBits (n : Nat) (d : BitVec 50) : List Bool := (List.range n).map d.getLsbD

/-- The body of an uplink frame before its CRC (Table 03-3). -/
def UpFrame.fields : UpFrame → List Bool
  | .data f =>
    let n := if f.double then 50 else 25
    [false, f.double] ++ bitsMS 3 f.state ++ bitsMS 8 f.seq ++ bitsMS 6 f.epoch ++ [f.goff] ++ bitsMS 4 f.idx ++ bitsMS 8 f.val
      ++ sampleBits n f.d0 ++ sampleBits n f.d1
  | .resp addr value => [true, false] ++ bitsMS 8 addr ++ bitsMS 16 value

/-- The line bits of an uplink frame after its marker, from scrambler state `r`, and the state after it. -/
def UpFrame.line (f : UpFrame) (r : BitVec 17) : List Bool × BitVec 17 :=
  let (b, r') := scramble17 r (f.fields ++ bitsMS 16 (crc16 f.fields).toNat)
  (stuff 6 false 0 b, r')

/-- The length of an uplink body by its two type bits (Table 03-1); type 0b11 is reserved. -/
def upLength : List Bool → Option Nat
  | false :: false :: _ => some 98
  | false :: true :: _ => some 148
  | true :: false :: _ => some 42
  | _ => none

/-- The receiver of R88 to R90 on the line bits after a marker: it removes the bit after six equal ones, descrambles, and
ends with the last body bit that the type asks for. None is a framing error: seven equal bits, a reserved type, or a line
that ends, at a marker, before the body is complete. `acc` holds the body bits, newest first. -/
def receive17 : BitVec 17 → Bool → Nat → List Bool → List Bool → Option (List Bool) × BitVec 17
  | r, _, _, _, [] => (none, r)
  | r, last, run, acc, b :: bs =>
    if run = 6 then (if b == last then (none, r) else receive17 r b 1 acc bs)
    else
      let x := (b != r.getLsbD 12) != r.getLsbD 16
      let r := (r <<< 1) ||| BitVec.ofNat 17 (bit01 b)
      let acc := x :: acc
      let run := if b == last ∧ 0 < run then run + 1 else 1
      if acc.length < 2 then receive17 r b run acc bs
      else match upLength (acc.drop (acc.length - 2)).reverse with
        | none => (none, r)
        | some n => if acc.length = n then (some acc.reverse, r) else receive17 r b run acc bs

/-- The number in `w` bits of a body from bit `o` on. -/
def bodyField (b : List Bool) (o w : Nat) : Nat := natMS ((b.drop o).take w)

/-- The samples in `n` bits of a body from bit `o` on. -/
def bodySamples (b : List Bool) (o n : Nat) : BitVec 50 := BitVec.ofNat 50 (natMS ((b.drop o).take n).reverse)

/-- The frame that a complete body spells; none when its CRC is wrong (R91, R95). -/
def parseUp (b : List Bool) : Option UpFrame :=
  let n := b.length - 16
  if (crc16 (b.take n)).toNat ≠ bodyField b n 16 then none
  else match b with
    | true :: _ => some (.resp (bodyField b 2 8) (bodyField b 10 16))
    | _ =>
      let double := b.getD 1 false
      let k := if double then 50 else 25
      some (.data ⟨double, bodyField b 2 3, bodyField b 5 8, bodyField b 13 6, b.getD 19 false, bodyField b 20 4, bodyField b 24 8,
        bodySamples b 32 k, bodySamples b (32 + k) k⟩)

/-- An uplink frame from its line bits after the marker, with the descrambler's state after it. -/
def receiveUp (r : BitVec 17) (line : List Bool) : Option UpFrame × BitVec 17 :=
  let x := receive17 r false 0 [] line
  (x.1.bind parseUp, x.2)

end Sys2Proof
end

