-- ==== Sys2Proof/Machine/Blocks.lean ====
section
/-!
DEFINITION. Machine/Blocks.lean: the bytes of the fabric's blocks and their bits on a lane (R51, R266 to R269, R271, R286, R289,
R311, R334, R376), and the bits of an HB frame (R312).
-/
namespace Sys2Proof.Machine

open Sys2Proof

/-! ## Payloads -/

/-- The value of a state byte (Table 02-4). -/
def stateByte (b : CellByte) : Nat :=
  bit01 b.present + 2 * bit01 b.usable + 4 * b.last.code + 16 * bit01 b.fb + 32 * bit01 b.frac + 64 * bit01 b.degraded + 128 * bit01 b.retiring

/-- The 192 bytes of a key block (Table 02-3). -/
def keyBytes (b : KeyBlock) : List Byte :=
  bytesLE 2 b.cycLo ++ [BitVec.ofNat 8 (b.seg + 16 * bit01 b.twinB + 32 * b.arm),
      BitVec.ofNat 8 (bit01 b.holder + 2 * bit01 b.solo + 4 * bit01 b.rep + 8 * bit01 b.isolated + 16 * bit01 b.dir)]
    ++ bytesLE 1 b.nUse ++ bytesLE 1 b.nFb ++ bytesLE 2 b.presence ++ bytesLE 4 b.vSum ++ bytesLE 4 (wrapN 32 b.iArm)
    ++ bytesLE 4 (wrapN 32 b.uEcho) ++ bytesLE 2 b.band ++ bytesLE 2 b.vMin ++ bytesLE 2 b.vMax ++ bytesLE 6 0
    ++ (List.range 48).flatMap (fun p => bytesLE 2 (b.keys.getD p 0xFFFF))
    ++ (List.range 48).map (fun p => BitVec.ofNat 8 (stateByte (b.states.getD p {}))) ++ bytesLE 16 0

/-- An arm measurement record (Table 06-2). -/
def armMeasBytes (r : ArmMeas) : List Byte :=
  bytesLE 6 r.cycle ++ [BitVec.ofNat 8 (r.arm + 8 * bit01 r.ok + 16 * bit01 r.sat + 32 * bit01 r.red), 0]
    ++ bytesLE 4 (wrapN 32 r.iNext) ++ bytesLE 4 r.vSum ++ bytesLE 2 r.nUse ++ bytesLE 2 r.nFb ++ bytesLE 2 r.band
    ++ bytesLE 42 0

/-- The arm reference records of a control cycle (Table 08-7). -/
def refBlockBytes (b : RefBlock) : List Byte :=
  bytesLE 6 b.c0 ++ bytesLE 1 b.nc ++ bytesLE 1 b.present
    ++ bytesLE 2 ((List.range 6).foldl (fun n a => n + (b.cmds.getD a 0 % 4) * 4 ^ a) 0) ++ bytesLE 6 0
    ++ (List.range 6).flatMap fun a => let v := b.vals.getD a (0, 0); bytesLE 4 (wrapN 32 v.1) ++ bytesLE 4 (wrapN 32 v.2)

/-- A drone (Table 09-2). -/
def droneBytes (x : Drone) : List Byte :=
  bytesLE 6 x.cycle ++ bytesLE 2 (bit01 x.twinB + 2 * x.role + 8 * bit01 x.rel + 16 * bit01 x.ready + 32 * bit01 x.full + 64 * bit01 x.tOk + 128 * bit01 x.hbOk)
    ++ bytesLE 4 x.epoch ++ bytesLE 6 x.lease ++ bytesLE 6 x.relCycle ++ bytesLE 8 x.digest.toNat ++ bytesLE 8 x.cfgDigest.toNat
    ++ bytesLE 2 x.mism ++ bytesLE 1 x.reeds ++ bytesLE 1 x.rNeed ++ bytesLE 1 x.eCell ++ bytesLE 19 0

/-- A TRIGGER payload (Table 11-6). -/
def trigBytes (m : TrigMsg) : List Byte :=
  bytesLE 2 m.src ++ bytesLE 1 m.hops ++ bytesLE 1 (bit01 m.late + 2 * bit01 m.forced) ++ bytesLE 4 m.recId ++ bytesLE 2 m.cause
    ++ bytesLE 2 m.gen ++ bytesLE 6 m.cycle ++ bytesLE 2 m.tick ++ bytesLE 4 m.tickF ++ bytesLE 40 0

/-- A TIME payload (Table 10-1). -/
def timeBytes (m : TimeMsg) : List Byte :=
  bytesLE 2 (m.root + 4096 * m.m) ++ bytesLE 2 m.gen ++ bytesLE 1 m.hops
    ++ bytesLE 1 (bit01 m.ctValid + 2 * bit01 m.tCross + 4 * bit01 m.wallValid + 8 * bit01 m.wallHold + 16 * bit01 m.wallRef)
    ++ bytesLE 2 m.tMod ++ bytesLE 8 (m.tTx / 65536) ++ bytesLE 2 m.tTx ++ bytesLE 2 0 ++ bytesLE 6 m.cycle ++ bytesLE 2 m.tick
    ++ bytesLE 4 m.tickF ++ bytesLE 4 (wrapN 32 m.ctRate) ++ bytesLE 12 m.wall.toNat ++ bytesLE 4 (wrapN 32 m.wRate) ++ bytesLE 2 m.acc
    ++ bytesLE 10 0

/-- The streams of the named ports, `w` bits each, from bit `o` on. -/
def streamField (w : Nat) : Nat → List PortBits → Nat
  | _, [] => 0
  | o, b :: bs => (b.d0.toNat % 2 ^ w) * 2 ^ o + (b.d1.toNat % 2 ^ w) * 2 ^ (o + w) + streamField w (o + 2 * w) bs

/-- The field of R289: epoch, port mask, and from bit 62 on the streams, sample 0 in the lowest bit of each. -/
def repairBytes (double : Bool) (epoch mask : Nat) (bits : List PortBits) : List Byte :=
  bytesLE 64 (epoch % 2 ^ 14 + (mask % 2 ^ 48) * 2 ^ 14 + streamField (if double then 50 else 25) 62 bits)

/-- The route header of a unit (R271). -/
def routeHeader (u : FabUnit) : List Byte :=
  bytesLE 2 (u.dest.getD 0 + 4096 * bit01 u.dest.isNone) ++ bytesLE 2 u.src ++ bytesLE 1 u.hops ++ bytesLE 3 0 ++ bytesLE 4 u.len ++ bytesLE 4 u.id

/-- Block `i` of a unit. A content that the manual gives no bytes for is open (DESIGN CHOICE, log entry 133). -/
def unitBytes (u : FabUnit) (i : Nat) : List Byte :=
  let head := if i = 0 then routeHeader u else []
  let skip := if i = 0 then 0 else 64 * i - 16
  let body := match u.body with
    | .bytes b => (b.drop skip).take (64 - head.length)
    | _ => bytesLE (64 - head.length) (Config.unitContent u.src u.id i).toNat
  let all := head ++ body
  all ++ List.replicate (64 - all.length) 0

/-! ## Blocks on a lane (Tables 08-2, 08-3, 08-5) -/

/-- The header, with the class in bits 15 and 14. -/
def blockHeader (cls kind part seq : Nat) : Nat := cls * 2 ^ 14 + kind * 2 ^ 10 + part * 2 ^ 8 + seq % 256

/-- The data blocks of a block, as headers and payloads; `k` is the cycle in progress. Where the manual names the content of a
block and no bytes (REF_FWD, HELLO, DELAY, LINK_STATE, ACK, LANE_CMD), the payload is open (DESIGN CHOICE, log entry 133). -/
def FabBlock.parts (double : Bool) (k : Nat) (b : FabBlock) : List (Nat × List Byte) :=
  let cyc := fun (kind : Nat) (p : List Byte) => [(blockHeader 0 kind 0 k, p)]
  let ctl := fun (kind : Nat) (l : List Nat) => [(blockHeader 3 kind 0 0, bytesLE 64 (Config.blockContent kind l).toNat)]
  match b with
  | .key b _ => (List.range 3).map fun i => (blockHeader 0 0 i b.cycLo, ((keyBytes b).drop (64 * i)).take 64)
  | .want ms => cyc 1 ((ms.take 3).flatMap (bytesLE 2) ++ bytesLE (64 - 2 * (ms.take 3).length) 0)
  | .refRec r => cyc 2 (refBlockBytes r)
  | .armRec r => cyc 3 (armMeasBytes r)
  | .drone x => cyc 4 (droneBytes x)
  | .refFwd e bits => cyc 5 (bytesLE 64 (Config.blockContent 0x15 (e :: bits.flatMap fun x => [x.1, x.2.toNat])).toNat)
  | .repairReq e m => cyc 6 (repairBytes double e m [])
  | .repairData e r => match r with
    | .data bits => [(blockHeader 0 7 0 k, repairBytes double e (maskOf 48 fun p => bits.any fun x => x.port == p) bits)]
    | .absent m => [(blockHeader 0 7 1 k, repairBytes double e m [])]
  | .numbered seq x =>
    let n := ceilDiv x.unit.len 64
    let part := if n ≤ 1 then 0 else if x.ix = 0 then 1 else if x.ix + 1 = n then 3 else 2
    [(blockHeader (if x.unit.bulk then 2 else 1) x.unit.kind part seq, unitBytes x.unit x.ix)]
  | .skip => []
  | .hello x => ctl 2 [x.addr, bit01 x.twinB, x.seg, x.arm, x.port, x.lane, x.rate, x.version]
  | .delay m => ctl 3 [m.tTx, (m.tLast.map (· + 1)).getD 0]
  | .linkState c => ctl 4 [c.seg, c.port, c.width, c.apply]
  | .ack s nak => ctl 5 [s, bit01 nak]
  | .laneCmd c => ctl 6 [match c with
    | .down => 0
    | .retrain => 1
    | .idleReq => 2
    | .restored => 3]
  | .trigger m => [(blockHeader 3 7 0 0, trigBytes m)]
  | .time m => [(blockHeader 3 8 0 0, timeBytes m)]

/-- The body of a data block: header, payload and CRC-32; a relayed block that failed carries the complement of the CRC (R267,
R279). -/
def blockBody (bad : Bool) (x : Nat × List Byte) : List Bool :=
  let b := bitsMS 16 x.1 ++ byteBits x.2
  let c := crc32 b
  b ++ bitsMS 32 (if bad then ~~~c else c).toNat

/-- The line bits of bodies one after the other, each scrambled, stuffed and behind its marker (R266). -/
def linesFrom : BitVec 31 → List (List Bool) → List Bool × BitVec 31
  | r, [] => ([], r)
  | r, b :: bs =>
    let (x, r) := scramble31 r b
    let (y, r) := linesFrom r bs
    (marker16 ++ stuff 12 false 0 x ++ y, r)

/-- The line bits of a block from scrambler state `r`, and the state after it. A SKIP block is a header and 56 pad words, which are
neither scrambled nor stuffed (R269). -/
def FabBlock.line (double : Bool) (k : Nat) (b : FabBlock) (r : BitVec 31) : List Bool × BitVec 31 :=
  match b with
  | .skip =>
    let (x, r) := linesFrom r [bitsMS 16 (blockHeader 3 1 0 0)]
    (x ++ (List.replicate 56 (bitsMS 16 0xAAAA)).flatten, r)
  | _ =>
    let bad := match b with
      | .key _ bad => bad
      | _ => false
    linesFrom r ((b.parts double k).map (blockBody bad))

/-! ## HB frames (R312) -/

/-- The body of an HB frame before its CRC (Table 09-3). -/
def hbFields (f : HbFrame) : List Bool :=
  bitsMS 4 1 ++ [f.twinB] ++ bitsMS 2 f.role ++ [f.rel, f.ready, f.full, false, false] ++ bitsMS 32 f.cycle ++ bitsMS 32 f.epoch
    ++ bitsMS 16 f.lease ++ bitsMS 32 f.digest.toNat ++ bitsMS 4 0

/-- Its line bits in the coding of the cell link, marker included, and the scrambler after it. -/
def hbLine (f : HbFrame) (r : BitVec 17) : List Bool × BitVec 17 :=
  let b := hbFields f
  let (x, r) := scramble17 r (b ++ bitsMS 16 (crc16 b).toNat)
  (marker10 ++ stuff 6 false 0 x, r)

end Sys2Proof.Machine
end

