-- ==== Sys2Proof/Machine/Transmit.lean ====
section
/-!
DEFINITION. Machine/Transmit.lean: the transmitters. A downlink frame takes its safety-block bit when its serialisation
begins (R15, R87 to R94), and each fabric lane takes the next block by priority when it is free (R269, R276, R277, R292).
-/
namespace Sys2Proof.Machine

open Sys2Proof

/-! ## Cell ports (R87 to R94) -/

/-- What the safety unit imposes on every frame: the block request of either channel (R15, R94), and the ports held at
fill (R437). -/
structure Tx where
  sb : Bool
  forced : Nat
  deriving DecidableEq, Repr

def State.tx (s : State) : Tx := ⟨s.safe.a.request || s.safe.b.request, s.safe.forcedFill⟩

/-- The port puts frames on its downlink. -/
def Dev.sends (d : Dev) (tx : Tx) (p : Nat) : Bool :=
  (d.port p).stage != .off && !(d.port p).fillOnly && !bitN tx.forced p && !d.flt.silent

/-- The first bit period of 4 ns that begins at or after own time `clk`, in ticks of 1.6 ns. -/
def bitAfter (clk : Nat) : Nat := (2 * clk + 4) / 5

/-- The start of bit period `b` under phase-shifter setting `phi`, in 0.05 ns of own time (R87). -/
def bitStart (b phi : Nat) : Nat := 80 * b + 5 * phi

/-- The frames that wait on port `p` and whose turn has come by bit period `lim` begin, one after the other, with the
safety-block bit in force (R15, R94). -/
def Downlink.run (p : Nat) (sb : Bool) (lim : Nat) : List TxFrame → Downlink → Downlink × List Out
  | [], x => ({ x with wait := [] }, [])
  | w :: r, x =>
    let b := max w.from_ x.busy
    if lim < b then ({ x with wait := w :: r }, [])
    else
      let phi := w.phi.getD x.phi
      let f := w.frame.withSb sb
      let (line, scr) := f.line x.scr
      let go := Downlink.run p sb lim r
        { x with scr := scr, busy := b + line.length, phi := phi, echo := if f.isEcho then some (bitStart b phi) else x.echo }
      (go.1, .frame p f (bitStart b phi) line :: go.2)

/-- Every cell port up to the device's own time; a port that sends no frames drops those that wait. -/
def Dev.runDown (d : Dev) (tx : Tx) : Dev :=
  d.down.foldl (fun (d : Dev) x =>
    if x.2.wait.isEmpty || x.2.hold then d
    else if d.sends tx x.1 then
      let go := x.2.run x.1 tx.sb (2 * d.clk / 5) x.2.wait
      { d.setDl x.1 go.1 with out := d.out ++ go.2 }
    else d.setDl x.1 { x.2 with wait := [] }) d

/-- A frame waits for its serialisation: it begins at the next bit period, or after the frames before it. -/
def Dev.sendFrame (d : Dev) (tx : Tx) (p : Nat) (f : DownFrame) : Dev :=
  if d.sends tx p then d.setDl p { d.dl p with wait := (d.dl p).wait ++ [⟨f, bitAfter d.clk, none⟩] } else d

/-- The end of the last frame that waits on a port, in 0.05 ns of own time, if no later request changes it. -/
def Dev.frameEnds (d : Dev) (tx : Tx) (p : Nat) : Nat :=
  let x := ((d.dl p).run p tx.sb (2 ^ 80) (d.dl p).wait).1
  bitStart x.busy x.phi

/-! ## Fabric lanes (R266 to R277, R292) -/

/-- The device's time as it offers it at TBC `t` (2^−16 tick). -/
def Dev.timeMsg (d : Dev) (t : Nat) : TimeMsg :=
  let u := d.tim
  let v := u.ct.at ((t : Int) * 2 ^ 16)
  let lost := !u.isRoot && u.src.isNone && !u.ctValid
  { root := if u.isRoot then d.addr else u.root, m := u.rootM, gen := u.gen, hops := if u.isRoot then 0 else u.srcHops,
    ctValid := u.ctValid,
    tCross := !u.isRoot && u.srcCross,
    wallValid := u.wallValid, wallHold := u.wallHold, wallRef := u.wallRef, tMod := d.tModTicks, tTx := t,
    cycle := d.ctCycle v, tick := d.ctTick v, tickF := (v % 2 ^ 32).toNat, ctRate := u.ct.rho,
    wall := stampOf (u.wall.at ((t : Int) * 2 ^ 16)), wRate := u.wall.rho - u.ct.rho,
    acc := if u.isRoot then 0 else if lost then 0xFFFF else u.srcBound }

/-- T_b at lane rate `rate`, in 10 ps (R267). Every data block is taken to last that long, and no IDLE block under way
holds one up (DESIGN CHOICE, log entry 108). -/
def tBlock (rate : Nat) : Nat := 5008 * 2 ^ rate

/-- The time that a block takes: KEY its three parts, SKIP 928 bits (R269). -/
def FabBlock.span (rate : Nat) : FabBlock → Nat
  | .key _ _ => 3 * tBlock rate
  | .skip => 7424 * 2 ^ rate
  | _ => tBlock rate

/-- CYCLE blocks other than KEY (Table 08-5). -/
def FabBlock.otherCycle : FabBlock → Bool
  | .want _ | .refRec _ | .armRec _ | .drone _ | .refFwd _ _ | .repairReq _ _ | .repairData _ _ => true
  | _ => false

/-- The priority of a block, the lowest number first; `t` in a key window on port T, which has an order of its own. WANT
follows the drone there (R276; DESIGN CHOICE, log entry 108). -/
def FabBlock.rank (t : Bool) (b : FabBlock) : Nat :=
  match b with
  | .laneCmd _ => 0
  | .drone _ => 10
  | .want _ => if t then 11 else 10
  | .repairReq _ _ => if t then 12 else 10
  | .repairData _ _ => if t then 13 else 10
  | .refFwd _ _ => if t then 14 else 10
  | .armRec _ => 10
  | .refRec _ => if t then 25 else 10
  | .key _ _ => 20
  | .trigger _ | .time _ => 30
  | .numbered _ x => if x.unit.bulk then 50 else 40
  | .ack _ _ | .linkState _ | .delay _ | .hello _ | .skip => 60

/-- The end of the key window that an instant lies in, on ports E, W and T (R276), in 10 ps. A device in several arms takes
the longest exchange (DESIGN CHOICE, log entry 108). -/
def Dev.keyWindow (d : Dev) (p start : Nat) : Option Nat :=
  let tk := 160 * d.cyc.tk
  let n := d.arms.foldl (fun n a => max n (d.nSeg a)) 1
  let fin := tk + tKxPs n / 10 + 15000
  if p < 3 ∧ d.cyc.run = true ∧ tk + 14000 ≤ start ∧ start < fin then some fin else none

/-- A numbered, SKIP or TIME block waits for the window's end, and so does a second CYCLE block other than KEY of a lane of E
or W (R276, R334). -/
def Dev.windowStart (d : Dev) (p n start : Nat) (b : FabBlock) : Nat :=
  match d.keyWindow p start with
  | some fin =>
    let held : Bool := match b with
      | .numbered _ _ | .skip | .time _ => true
      | _ => b.otherCycle && p != 2 && (d.lane n).otherIn == some d.cyc.k
    if held then fin else start
  | none => start

/-- At half width a MESSAGE or BULK block that exceeds its share of the 100 µs window waits for the next one (R292). -/
def Dev.shareStart (d : Dev) (p start : Nat) (bulk : Bool) : Nat :=
  let l := d.link p
  if l.width ≠ 1 then start
  else
    let w := start / 10000000
    let used := if l.shareAt = w then (if bulk then l.bulkUsed else l.msgUsed) else 0
    let pct := if bulk then d.pn P.fab_bulk_half_pct else d.pn P.fab_msg_half_pct
    if pct * 10000000 < 100 * (used + tBlock (d.pni P.fab_rate p)) then (w + 1) * 10000000 else start

/-- What a lane may start next: one of the waiting blocks, the next block to be sent again, or the first numbered block of a
class. -/
inductive TxPick where
  | item (i : Nat) (x : TxItem)
  | again
  | first (b : TxBlock)
  deriving DecidableEq, Repr

/-- A start that is possible: its instant, its priority, its lane. -/
structure TxCand where
  start : Nat
  rank : Nat
  lane : Nat
  pick : TxPick
  deriving DecidableEq, Repr

/-- The next numbered blocks of a port (R277). -/
def Link.numbered (l : Link) : List (TxPick × TxBlock) :=
  if 0 < l.again then (l.unacked.drop (l.unacked.length - l.again)).head?.toList.map fun b => (.again, b)
  else if l.unacked.length < 128 then
    [false, true].filterMap fun bulk => (l.queue.find? fun b => b.unit.bulk == bulk).map fun b => (.first b, b)
  else []

/-- Every start that is possible on a port. -/
def Dev.txCands (d : Dev) (p : Nat) : List TxCand :=
  let l := d.link p
  (d.upLanes p).flatMap fun n =>
    let free := (d.lane n).free
    (l.tx.zip (List.range l.tx.length)).filterMap (fun (x : TxItem × Nat) =>
      if x.1.lane.any (· != n) then none
      else
        let start := d.windowStart p n (max free x.1.given) x.1.blk
        some ⟨start, x.1.blk.rank (p == 2 && (d.keyWindow p start).isSome), n, .item x.2 x.1⟩) ++
    l.numbered.map fun x =>
      let b : FabBlock := .numbered 0 x.2
      ⟨d.windowStart p n (d.shareStart p (max free l.queuedAt) x.2.unit.bulk) b, b.rank false, n, x.1⟩

/-- The earliest start, at one instant the one of the highest priority, then the oldest. -/
def firstCand (l : List TxCand) : Option TxCand :=
  l.foldl (fun best c => match best with
    | some b => if c.start < b.start ∨ (c.start = b.start ∧ c.rank < b.rank) then some c else some b
    | none => some c) none

/-- A block as it starts: DELAY and TIME take the TBC at which their marker leaves (R274, R334). -/
def Dev.stamped (d : Dev) (n start : Nat) (b : FabBlock) : FabBlock :=
  let t := (start - 160 * d.tim.tbc0) * 65536 / 160
  match b with
  | .delay _ => .delay ⟨t, (d.lane n).lastRx⟩
  | .time _ => .time (d.timeMsg t)
  | b => b

/-- The blocks on a lane since its last SKIP by instant `start`: an idle lane sends IDLE blocks of 576 bits (R269). -/
def Dev.blocksSince (d : Dev) (n start : Nat) : Nat :=
  let l := d.lane n
  l.sinceSkip + (start - l.free) / (4608 * 2 ^ d.pni P.fab_rate (n / 2))
def Dev.sinceSkip (d : Dev) (n : Nat) : Nat := d.blocksSince n (160 * d.clk)

/-- A block starts on a lane, woken from electrical idle by the training burst where it was idle (R273, R275). After IDLE blocks the
scrambler's state is open (DESIGN CHOICE, log entry 133). -/
def Dev.startOn (d : Dev) (n start : Nat) (b : FabBlock) (again : Bool) : Dev :=
  let l := d.lane n
  let rate := d.pni P.fab_rate (n / 2)
  let from_ := if l.idle then start + 16384 * 2 ^ rate else start
  let b := d.stamped n from_ b
  let d := if l.idle then d.emit (.training n) else d
  -- the scrambler runs on; how many IDLE blocks have passed through it since the last block is not followed
  let (d, scr) : Dev × BitVec 31 := if from_ = l.free then (d, l.scr) else (d.drawn, d.freeVal 31)
  let (line, scr) := b.line (d.pv P.link_double_rate == 1) d.cyc.k scr
  let parts : Nat := match b with
    | .key _ _ => 3
    | .skip => 0
    | _ => 1
  let tx : Option Nat := match b with
    | .delay m => some m.tTx
    | _ => l.lastTx
  (d.setLane n { l with
    idle := false, free := from_ + b.span rate, tx := l.tx + BitVec.ofNat 32 parts, retx := if again then l.retx + 1 else l.retx,
    sinceSkip := if parts = 0 then 0 else d.blocksSince n start + parts, busyAt := if parts = 0 then l.busyAt else max l.busyAt (from_ / 160), lastTx := tx, scr := scr
    otherIn := if b.otherCycle && (d.keyWindow (n / 2) from_).isSome then some d.cyc.k else l.otherIn }).emit (.fab n from_ b line)

/-- Own time with a fraction of a tick in 2^−16, in 10 ps. -/
def Dev.instant (d : Dev) (frac : Nat) : Nat := 160 * d.clk + 160 * (frac % 65536) / 65536

/-- A block that goes on one lane at an instant, or at the end of the block under way. -/
def Dev.sendNow (d : Dev) (n at_ : Nat) (b : FabBlock) : Dev := d.startOn n (max (d.lane n).free at_) b false

/-- The time that a numbered block takes of the shares of R292. -/
def Dev.useShare (d : Dev) (p start : Nat) (bulk : Bool) : Dev :=
  let l := d.link p
  let w := start / 10000000
  let l := if l.shareAt = w then l else { l with shareAt := w, msgUsed := 0, bulkUsed := 0 }
  let t := tBlock (d.pni P.fab_rate p)
  d.setLink p (if bulk then { l with bulkUsed := l.bulkUsed + t } else { l with msgUsed := l.msgUsed + t })

/-- The chosen block starts. A numbered block takes the next sequence number of the link. -/
def Dev.begin (d : Dev) (p : Nat) (c : TxCand) : Dev :=
  let l := d.link p
  match c.pick with
  | .item i x => (d.setLink p { l with tx := l.tx.eraseIdx i }).startOn c.lane c.start x.blk false
  | .again =>
    let i := l.unacked.length - l.again
    match l.unacked[i]? with
    | some b =>
      ((d.setLink p { l with again := l.again - 1 }).useShare p c.start b.unit.bulk).startOn c.lane c.start (.numbered ((l.base + i) % 256) b) true
    | none => d
  | .first b =>
    ((d.setLink p { l with queue := l.queue.erase b, unacked := l.unacked ++ [b],
                           sentAt := if l.unacked.isEmpty then c.start / 160 else l.sentAt }).useShare p c.start b.unit.bulk).startOn
      c.lane c.start (.numbered ((l.base + l.unacked.length) % 256) b) false

/-- The blocks of a port that start by the device's own time. -/
def Dev.runPort (p : Nat) : Nat → Dev → Dev
  | 0, d => d
  | fuel + 1, d =>
    match firstCand (d.txCands p) with
    | some c => if c.start ≤ 160 * d.clk then Dev.runPort p fuel (d.begin p c) else d
    | none => d

/-- Every lane up to the device's own time. -/
def Dev.runLanes (d : Dev) : Dev :=
  [0, 1, 2, 3].foldl (fun (d : Dev) p =>
    let l := d.link p
    d.runPort p (l.tx.length + l.queue.length + l.again)) d

/-- A block other than a numbered one waits for one lane from an instant on. -/
def Dev.giveLane (d : Dev) (n at_ : Nat) (b : FabBlock) : Dev :=
  let l := d.link (n / 2)
  d.setLink (n / 2) { l with tx := l.tx ++ [⟨b, at_, some n⟩] }

/-- A block other than a numbered one waits for a lane of the port from an instant on. The KEY units of a cycle alternate between the lanes,
starting with the first (R279). -/
def Dev.giveAt (d : Dev) (p at_ : Nat) (b : FabBlock) : Dev :=
  if !d.linkUp p then d
  else
    let l := d.link p
    match b with
    | .key _ _ =>
      let n := if l.keyAt = d.cyc.k then l.keyN else 0
      let up := d.upLanes p
      d.setLink p { l with tx := l.tx ++ [⟨b, at_, up[n % max 1 up.length]?⟩], keyAt := d.cyc.k, keyN := n + 1 }
    | _ => d.setLink p { l with tx := l.tx ++ [⟨b, at_, none⟩] }

/-- A block waits from now on. -/
def Dev.give (d : Dev) (p : Nat) (b : FabBlock) : Dev := d.giveAt p (160 * d.clk) b

end Sys2Proof.Machine
end

