-- ==== Sys2Proof/Machine/Ops.lean ====
section
/-!
DEFINITION. Machine/Ops.lean: the operations the meanings share: a command's instant, events (R459), command completion (R396, R399), addressed memories, granule queues' pool.
-/
namespace Sys2Proof.Machine

open Sys2Proof

/-! ## A command at its instant -/

/-- The device at instant `t`: its own time never runs backwards. -/
def Dev.at (d : Dev) (t : Nat) : Dev := { d with clk := max d.clk t }

/-- The device as a command leaves it, at the command's instant. -/
def Dev.until (d : Dev) (t : Nat) (d' : Dev) : Dev := { d' with clk := max d.clk t }

/-- The state at instant `t`, before the command that comes then: what its transmitters have begun to send by `t` has
left them (R87 to R94, R276). -/
def State.at (s : State) (t : Nat) : State := { s with dev := ((s.dev.at t).runLanes).runDown s.tx }

/-- A command at instant `t` that changes the device only. `wf` says that every object it names exists. -/
def State.upd (s : State) (t : Nat) (wf : Bool) (f : State → Dev → Dev) : Answer :=
  if wf then .next { s with dev := s.dev.until t (f s (s.at t).dev) } else .fault .noSuchObject

/-- The state as `f` leaves it, at the command's instant and with what waits in the queue as it was. -/
def State.until (s : State) (t : Nat) (s' : State) : State := { s' with dev := s.dev.until t s'.dev, pending := s.pending }

/-- A command at instant `t` that may also change the safety unit, the OTP or the boot flash. -/
def State.updAll (s : State) (t : Nat) (wf : Bool) (f : State → State) : Answer :=
  if wf then .next (s.until t (f (s.at t))) else .fault .noSuchObject

/-! ## Events (R459, R460, R504) -/

/-- The entry with sequence number `seq` at the present instant. -/
def Dev.entry (d : Dev) (code supp : Nat) (arg : Word) (ext : Bool) : Entry :=
  { seq := d.log.nextSeq, code, sev := severity code, wallV := d.tim.wallValid, ctV := d.tim.ctValid, ext, supp,
    wall := d.wallNow, cycle := d.ctCycle d.ctNow, tick := d.ctTick d.ctNow, arg }

/-- An entry added to the event log, the last 65,536 kept, and to the journal buffer. -/
def Log.push (l : Log) (e : Entry) : Log :=
  { l with
    ring := (l.ring ++ [e]).drop ((l.ring.length + 1) - 65536)
    buffer := l.buffer ++ [e]
    nextSeq := l.nextSeq + 1 }

/-- The EVCNT counters after an event (Table 16-3). -/
def Log.count (l : Log) (code sev : Nat) : Log :=
  let s := code / 256
  let bump := fun (c : Tab Word) k => c.modify 0 k (· + 1)
  let c := if 1 ≤ sev then bump (bump l.cnt 0) (2 * s) else l.cnt
  let c := if 2 ≤ sev then bump (bump c 1) (2 * s + 1) else c
  { l with cnt := c }

/-- The 28-byte continuations of an argument's further bytes. -/
def chunks28 : Nat → List Byte → List (List Byte)
  | 0, _ => []
  | n + 1, bs => if bs.isEmpty then [] else bs.take 28 :: chunks28 n (bs.drop 28)

/-- A session frame: the type, the body's length, and the body (R385). -/
def frameBytes (type : Nat) (body : List Byte) : List Byte := bytesLE 4 type ++ bytesLE 4 body.length ++ body

/-- Vector 8 and the EVENT frame of each session for a new entry that meets SYS.EVT_FILTER (R504, Table 12-3). -/
def Dev.signalEvent (d : Dev) (sev : Nat) : Dev :=
  if sev < d.host.evtFilter then d
  else { d with out := d.out ++ [Out.irq 8] ++ d.host.sessions.map (fun p => Out.sessFrame p.1 (frameBytes 3 (bytesLE 4 (d.log.nextSeq - 1).toNat))) }

/-- An event with its argument bytes, the first four in the entry and the rest in continuations (R459). -/
def Dev.raiseB (d : Dev) (code : Nat) (arg : List Byte) : Dev :=
  let supp := d.log.supp.get 0 code
  let more := chunks28 (arg.length / 28 + 1) (arg.drop 4)
  let e := d.entry code supp (BitVec.ofNat 32 (natLE (arg.take 4))) (!more.isEmpty)
  let l := (d.log.push e).count code e.sev
  let l := more.foldl (fun (l : Log) bs => l.push { e with seq := l.nextSeq, code := 0, ext := false, supp := 0, cont := some bs }) l
  ({ d with log := { l with supp := l.supp.set code 0, framedAt := if e.sev < d.host.evtFilter then l.framedAt else d.clk } }).signalEvent e.sev

/-- An event whose argument fits in four bytes. -/
def Dev.raise (d : Dev) (code : Nat) (arg : Nat := 0) : Dev := d.raiseB code (bytesLE 4 arg)

/-- An event raised at most once per `period` ticks for each `key`; the suppressed ones are counted (R459). -/
def Dev.raiseLimB (d : Dev) (code key period : Nat) (arg : List Byte) : Dev :=
  let k := code * 65536 + key
  match d.log.last.find k with
  | some t =>
    if d.clk < t + period then { d with log := { d.log with supp := d.log.supp.modify 0 code (fun n => min 255 (n + 1)) } }
    else ({ d with log := { d.log with last := d.log.last.set k d.clk } }).raiseB code arg
  | none => ({ d with log := { d.log with last := d.log.last.set k d.clk } }).raiseB code arg
def Dev.raiseLim (d : Dev) (code key period : Nat) (arg : Nat := 0) : Dev := d.raiseLimB code key period (bytesLE 4 arg)

/-- The argument of a cell event: arm [2:0], segment [6:3], port [12:7] (Table 14-9). -/
def cellArg (arm seg port : Nat) : Nat := arm + seg * 8 + port * 128

/-- The bytes of an entry (Table 14-9). -/
def Entry.bytes (e : Entry) : List Byte :=
  match e.cont with
  | some bs => bytesLE 4 e.seq.toNat ++ bytesLE 28 (natLE bs)
  | none =>
    bytesLE 4 e.seq.toNat ++ bytesLE 2 e.code
      ++ [BitVec.ofNat 8 (e.sev + 4 * bit01 e.wallV + 8 * bit01 e.ctV + 16 * bit01 e.ext), BitVec.ofNat 8 e.supp]
      ++ bytesLE 12 e.wall.toNat ++ bytesLE 6 e.cycle ++ bytesLE 2 e.tick ++ bytesLE 4 e.arg.toNat

/-! ## Addressed memories -/

/-- The canonical form: addresses rise, and no byte is listed that an unlisted address reads as. -/
def memWf : List Host.Cell → Bool
  | [] => true
  | [(_, v)] => v != 0
  | (a, v) :: (b, w) :: r => v != 0 && decide (a < b) && memWf ((b, w) :: r)

/-- A byte; an unlisted address reads 0. -/
def memRead : List Host.Cell → Nat → Byte
  | [], _ => 0
  | (b, v) :: r, a => if a = b then v else memRead r a

/-- A byte written, the canonical form kept. -/
def memWrite : List Host.Cell → Nat → Byte → List Host.Cell
  | [], a, v => if v = 0 then [] else [(a, v)]
  | (b, w) :: r, a, v =>
    if a < b then (if v = 0 then (b, w) :: r else (a, v) :: (b, w) :: r)
    else if a = b then (if v = 0 then r else (a, v) :: r)
    else (b, w) :: memWrite r a v

/-- Bytes from an address on. -/
def memReadN (m : List Host.Cell) (a n : Nat) : List Byte := (List.range n).map (fun i => memRead m (a + i))

/-- Bytes written from an address on. -/
def memWriteN : List Host.Cell → Nat → List Byte → List Host.Cell
  | m, _, [] => m
  | m, a, b :: bs => memWriteN (memWrite m a b) (a + 1) bs

/-! ## Commands (R396 to R402, Tables 12-7 to 12-9) -/

/-! Status codes (Table 12-8). -/
namespace Sc
abbrev DONE : Nat := 0x00
abbrev BAD_OPCODE : Nat := 0x01
abbrev BAD_ARG : Nat := 0x02
abbrev RANGE : Nat := 0x03
abbrev STATE : Nat := 0x04
abbrev BUSY : Nat := 0x05
abbrev DISABLED : Nat := 0x06
abbrev LOCKED : Nat := 0x07
abbrev DENIED : Nat := 0x08
abbrev TAG_IN_USE : Nat := 0x09
abbrev NO_ROUTE : Nat := 0x0A
abbrev TIMEOUT : Nat := 0x0B
abbrev TWIN_TIMEOUT : Nat := 0x0C
abbrev REPLACED : Nat := 0x0D
abbrev LATE : Nat := 0x0E
abbrev FULL : Nat := 0x0F
abbrev EMPTY : Nat := 0x10
abbrev UNKNOWN_PARAM : Nat := 0x11
abbrev INVALID : Nat := 0x12
abbrev NO_RECORD : Nat := 0x13
abbrev PRE_EXCEEDS : Nat := 0x14
abbrev POST_EXCEEDS : Nat := 0x15
abbrev NO_ZERO : Nat := 0x16
abbrev CAL_RANGE : Nat := 0x17
abbrev CAL_SAT : Nat := 0x18
abbrev SELFTEST_FAIL : Nat := 0x19
abbrev DMA_ERROR : Nat := 0x1A
abbrev ALARM : Nat := 0x1B
abbrev SIG_INVALID : Nat := 0x1C
abbrev ROLLBACK : Nat := 0x1D
end Sc

/-- The time classes of Table 12-7. -/
inductive TimeClass where
  | i | c | p | l
  deriving DecidableEq, Repr

/-- A row of Table 12-9: opcode, class, privilege level. -/
structure OpRow where
  opcode : Nat
  cls : TimeClass
  level : Level
  deriving DecidableEq, Repr

/-- Table 12-9. -/
def opTable : List OpRow := [
  ⟨0x0001, .i, 0⟩, ⟨0x0002, .i, 0⟩, ⟨0x0003, .i, 0⟩, ⟨0x0004, .l, 0⟩, ⟨0x0005, .i, 0⟩,
  ⟨0x0010, .p, 1⟩, ⟨0x0011, .c, 1⟩, ⟨0x0012, .c, 2⟩, ⟨0x0013, .l, 2⟩,
  ⟨0x0020, .i, 0⟩, ⟨0x0021, .i, 2⟩, ⟨0x0022, .l, 2⟩, ⟨0x0023, .i, 2⟩, ⟨0x0024, .i, 2⟩, ⟨0x0025, .i, 0⟩,
  ⟨0x0050, .p, 1⟩, ⟨0x0051, .p, 2⟩, ⟨0x0060, .i, 2⟩, ⟨0x0061, .c, 2⟩, ⟨0x0062, .c, 1⟩, ⟨0x0070, .l, 2⟩,
  ⟨0x0080, .p, 1⟩, ⟨0x0081, .p, 1⟩, ⟨0x0082, .i, 1⟩, ⟨0x0083, .l, 2⟩] ++ [
  ⟨0x0090, .l, 2⟩, ⟨0x00A0, .l, 2⟩, ⟨0x00B0, .l, 1⟩, ⟨0x00B1, .c, 1⟩, ⟨0x00C0, .i, 1⟩,
  ⟨0x00D0, .i, 1⟩, ⟨0x00D1, .c, 1⟩, ⟨0x00D2, .c, 1⟩, ⟨0x00D3, .l, 0⟩, ⟨0x00D4, .i, 1⟩, ⟨0x00D5, .i, 0⟩,
  ⟨0x00E0, .i, 0⟩, ⟨0x00E1, .i, 1⟩, ⟨0x00E2, .i, 1⟩, ⟨0x00E3, .i, 1⟩, ⟨0x00F0, .i, 0⟩,
  ⟨0x0100, .l, 2⟩, ⟨0x0101, .l, 2⟩, ⟨0x0102, .l, 2⟩, ⟨0x0103, .l, 0⟩, ⟨0x0104, .i, 0⟩, ⟨0x0105, .l, 2⟩,
  ⟨0x0106, .l, 0⟩, ⟨0x0107, .i, 2⟩, ⟨0x0108, .l, 2⟩]

/-- The row of an opcode. -/
def opRow? (op : Nat) : Option OpRow := opTable.find? (fun r => r.opcode == op)

/-- Whether the alarm level refuses an opcode (Table 14-7, R457). -/
def alarmRefuses (level op : Nat) : Bool :=
  if level = 2 then [0x0108, 0x0100, 0x0101, 0x0102, 0x0021, 0x0022, 0x0024].contains op
  else if 3 ≤ level then !([0x0001, 0x0002, 0x0003, 0x0004, 0x00F0, 0x0106].contains op)
  else false

/-- Whether an opcode belongs to a function that mode.fn_enable disables (R399, R482, DEDUCED, log entry 21). -/
def fnRefuses (fn op : Nat) : Bool :=
  (!bitN fn 0 && 0x00D0 ≤ op && op ≤ 0x00D5) || (!bitN fn 1 && op == 0x0070)
    || (!bitN fn 4 && (op == 0x0081 || op == 0x0083))

/-- Whether an opcode needs the power state RUN (R485): classes C and P but MODE_POWER (DEDUCED, log entry 22). -/
def needsRun (op : Nat) : Bool :=
  op != 0x0011 && (match opRow? op with
    | some r => r.cls == .c || r.cls == .p
    | none => false)

/-- The opcodes the boot ROM serves (Table 14-1). -/
def romServes (op : Nat) : Bool := [0x0100, 0x0101, 0x0102, 0x0002, 0x0104].contains op

/-- A status with no result. -/
def stRes (status : Nat) : CmdResult := ⟨status, [], []⟩

/-- A result of 16 bytes from 32-bit words. -/
def wordsBytes (ws : List Nat) : List Byte := ws.flatMap (bytesLE 4)

/-- The check that a command passes before it starts, in its turn of the alarm level, the boot ROM, the power state
and the disabled functions (R399, R402, R456, R482, R485). -/
def Dev.precheck (d : Dev) (c : CmdRef) (op : Nat) : Option Nat :=
  if alarmRefuses d.sec.alarm op then some Sc.ALARM
  else if d.boot.pcieBoot && !romServes op then some Sc.BAD_OPCODE
  else if d.mode.power != .run && needsRun op then some Sc.STATE
  else if fnRefuses d.mode.fnEnable op then some Sc.DISABLED
  else if c.xfer == .outFailed then some Sc.DMA_ERROR
  else none

/-- The in-flight list with a command's result set; a command that is not listed is listed with it. -/
def setResult (c : CmdRef) (op : Nat) (r : CmdResult) : List Inflight → List Inflight
  | [] => [{ gw := c.gw, qp := c.qp, tag := c.tag, opcode := op, result := some r }]
  | f :: fs =>
    if f.gw = c.gw ∧ f.qp = c.qp ∧ f.tag = c.tag ∧ f.result = none then { f with result := some r } :: fs
    else f :: setResult c op r fs

/-- A command's completion, ready to be written (R392, R396); a data-in transfer that fails completes it with
DMA_ERROR and its effect stands (R399). -/
def Dev.complete (d : Dev) (c : CmdRef) (op : Nat) (r : CmdResult) : Dev :=
  let r := if c.xfer = .inFailed ∧ r.data ≠ [] then stRes Sc.DMA_ERROR else r
  { d with host := { d.host with inflight := setResult c op r d.host.inflight } }

/-- A fenced command waits while an earlier command of its queue pair is in flight (R398). -/
def fenceWaits (c : CmdRef) : List Inflight → Bool → Bool
  | [], _ => false
  | f :: fs, earlier =>
    if f.gw = c.gw ∧ f.qp = c.qp then
      if f.tag = c.tag ∧ f.result = none then f.fenced && earlier else fenceWaits c fs true
    else fenceWaits c fs earlier

/-- A host command that completes at once: `body` gives its effect and its result. -/
def Dev.runCmd (d : Dev) (c : CmdRef) (op : Nat) (body : Dev → Dev × CmdResult) : Dev :=
  if fenceWaits c d.host.inflight false then d
  else match d.precheck c op with
  | some st => d.complete c op (stRes st)
  | none => (body d).1.complete c op (body d).2

/-- A host command that completes later, unless `body` answers a result. -/
def Dev.startCmd (d : Dev) (c : CmdRef) (op : Nat) (body : Dev → Dev × Option CmdResult) : Dev :=
  if fenceWaits c d.host.inflight false then d
  else match d.precheck c op with
  | some st => d.complete c op (stRes st)
  | none => match body d with
    | (d', some r) => d'.complete c op r
    | (d', none) => d'

/-- The wake sources as the event carries them (DESIGN CHOICE, log entry 57). -/
def wakeCode : WakeSource → Nat
  | .sysWake => 0
  | .doorbell => 1
  | .tcpSyn => 2
  | .laneEnergy => 3
  | .safety => 4
  | .alarm => 5
  | .restTimer => 6
  | .fabricUnit => 7
  | .modePower => 8

/-- A wake source is accepted (R487): from REST the device wakes to IDLE, and from IDLE to RUN for MODE_POWER RUN and for a
fabric unit that needs RUN. -/
def Dev.wakeBy (d : Dev) (src : WakeSource) : Dev :=
  let run := src == .fabricUnit || src == .modePower
  let dest : Option Power := match d.mode.power with
    | .rest => if run then none else some .idle
    | .idle => if run then some .run else none
    | .run => none
  match dest with
  | some p =>
    if d.mode.waking.isSome then d
    else ({ d with mode := { d.mode with waking := some p } }).raise Ev.MODE_WAKE (wakeCode src)
  | none => d

/-- An element of a list replaced. -/
def listSet {α : Type} (l : List α) (i : Nat) (v : α) : List α := l.set i v

end Sys2Proof.Machine
end

