-- ==== Sys2Proof/Machine/ChainOps.lean ====
section
/-!
DEFINITION. Machine/ChainOps.lean: the arithmetic of a decimation chain (R142 to R166): presets, coefficient sets, the
stages sample by sample, fades, tags, the edge branch and stream health.
-/
namespace Sys2Proof.Machine

open Sys2Proof

/-! ## Presets and coefficient sets -/

/-- A row of Tables 04-4 to 04-6 and 04-14. -/
structure Preset where
  slot : Nat
  tIn : Nat
  k : Nat
  ms : Nat
  n1 : Nat
  m1 : Nat
  n2 : Nat
  m2 : Nat
  sh0 : Int
  sh1 : Nat
  sh2 : Nat
  tau1 : Nat                       -- Q8.8
  tau2 : Nat
  deriving DecidableEq, Repr

def presets : List Preset := [
  ⟨0, 40, 4, 5, 15, 5, 5, 1, 0, 5, 17, 0x0200, 0x0080⟩,
  ⟨1, 40, 4, 5, 23, 5, 0, 1, 0, 5, 0, 0x0B00, 0⟩,
  ⟨2, 40, 4, 5, 11, 2, 0, 1, 0, 5, 0, 0x0180, 0⟩,
  ⟨3, 20, 4, 10, 15, 5, 5, 1, 0, 9, 17, 0x0200, 0x0080⟩,
  ⟨8, 40, 3, 5, 0, 1, 0, 1, -15, 0, 0, 0, 0⟩,
  ⟨9, 40, 3, 5, 15, 5, 0, 1, 0, 2, 0, 0x0700, 0⟩,
  ⟨10, 40, 4, 5, 23, 5, 9, 2, 0, 5, 17, 0x0B00, 0x0400⟩,
  ⟨11, 40, 4, 10, 31, 5, 15, 2, 0, 9, 17, 0x0F00, 0x0700⟩,
  ⟨12, 40, 5, 25, 31, 4, 31, 5, 2, 17, 17, 0x0F00, 0x0F00⟩,
  ⟨13, 40, 5, 25, 63, 4, 63, 8, 2, 17, 17, 0x1F00, 0x1F00⟩,
  ⟨14, 40, 3, 5, 15, 5, 0, 1, 0, 2, 0, 0x0280, 0⟩,
  ⟨15, 20, 3, 10, 15, 5, 0, 1, 0, 5, 0, 0x0700, 0⟩]

def preset (i : Nat) : Preset := presets.getD i ⟨0, 40, 4, 5, 15, 5, 5, 1, 0, 5, 17, 0x0200, 0x0080⟩

/-- A coefficient set (Table 04-3). -/
structure CoefSet where
  sh1 : Nat
  sh2 : Nat
  tau1 : Nat
  tau2 : Nat
  c1 : List Int
  c2 : List Int
  deriving DecidableEq, Repr

def CoefSet.n1 (s : CoefSet) : Nat := s.c1.length
def CoefSet.n2 (s : CoefSet) : Nat := s.c2.length

/-- The coefficients of a stage of a preset set: open but for their sum 131,072 (R550, DESIGN CHOICE, log entry 43). -/
def presetStage (slot stage n : Nat) : List Int :=
  match n with
  | 0 => []
  | m + 1 =>
    let cs := (List.range m).map fun j => (Config.presetCoef slot stage j).toInt
    cs ++ [131072 - cs.foldl (· + ·) 0]

/-- A loaded set from its words. -/
def coefOfWords (w : List Word) : CoefSet :=
  let h := (w.getD 0 0).toNat
  let n1 := min 255 (fieldN h 0 9)
  let n2 := min 255 (fieldN h 9 9)
  let c := fun i => signedN 18 ((w.getD i 0).toNat % 2 ^ 18)
  ⟨fieldN h 18 5, fieldN h 23 5, fieldN (w.getD 1 0).toNat 0 16, fieldN (w.getD 1 0).toNat 16 16,
    (List.range n1).map fun j => c (2 + j), (List.range n2).map fun j => c (2 + n1 + j)⟩

/-- The set of a slot: a preset's, a loaded one, or the all-zero set of a reserved slot. -/
def Dev.coefSet (d : Dev) (slot : Nat) : CoefSet :=
  if slot < 16 then match presets.find? (fun p => p.slot == slot) with
    | some p => ⟨p.sh1, p.sh2, p.tau1, p.tau2, presetStage slot 1 p.n1, presetStage slot 2 p.n2⟩
    | none => coefOfWords []
  else coefOfWords (d.meas.coef.get [] slot)

/-- G_dc as a fraction (R143). -/
def gDc (p : Preset) (s : CoefSet) : Int × Nat :=
  let s1 : Int := if s.c1.isEmpty then 1 else s.c1.foldl (· + ·) 0
  let s2 : Int := if s.c2.isEmpty then 1 else s.c2.foldl (· + ·) 0
  let up := if p.sh0 < 0 then (-p.sh0).toNat else 0
  let dn := if p.sh0 < 0 then 0 else p.sh0.toNat
  let a := if s.c1.isEmpty then 0 else s.sh1
  let b := if s.c2.isEmpty then 0 else s.sh2
  (((p.ms ^ p.k * 2 ^ up : Nat) : Int) * s1 * s2, 2 ^ (dn + a + b))

/-- A set is refused for a chain of preset `p` (R142, R143, R144, R146). -/
def setRefused (p : Preset) (s : CoefSet) : Bool :=
  let (n, q) := gDc p s
  decide (((2 ^ 22 * q : Nat) : Int) < n)
    || decide (250000000 * (p.ms * p.m1 * p.m2) < 2 * (1000000000 / p.tIn) * (s.n1 * p.m2 + s.n2))
    || (s.n1 == 0 && p.m1 != 1) || (s.n2 == 0 && p.m2 != 1)

/-- 1 / G_dc as FP32 (R155). -/
def gainInv (p : Preset) (s : CoefSet) : F32 :=
  let (n, q) := gDc p s
  if n = 0 then f32div f1 f0 else if n < 0 then f32neg (f32ofRat q n.natAbs) else f32ofRat q n.toNat

/-- τ in 1/256 input samples (R152). -/
def tau256 (p : Preset) (s : CoefSet) : Nat :=
  p.k * (p.ms - 1) * 128 + (if s.c1.isEmpty then 0 else s.tau1) * p.ms + (if s.c2.isEmpty then 0 else s.tau2) * p.ms * p.m1

/-- The length of the impulse response in input samples, and N_inv (R156). -/
def lIn (p : Preset) (s : CoefSet) : Nat := p.k * (p.ms - 1) + 1 + (s.n1 - 1) * p.ms + (s.n2 - 1) * p.ms * p.m1
def mTot (p : Preset) : Nat := p.ms * p.m1 * p.m2
/-- The longest impulse response that any set gives a chain. -/
def lInMax (p : Preset) : Nat := p.k * (p.ms - 1) + 1 + 254 * p.ms + 254 * p.ms * p.m1
def nInv (p : Preset) (s : CoefSet) : Nat := ceilDiv (lIn p s) (mTot p) - 1

/-! ## Stage arithmetic (R142) -/

def shiftR (v : Int) (s : Int) : Int :=
  if 0 < s then (v + 2 ^ (s.toNat - 1)) / 2 ^ s.toNat
  else if s = 0 then v
  else signedN 40 (wrapN 40 (v * 2 ^ (-s).toNat))

def sat24 (v : Int) : Int := clampInt (-8388608) 8388607 v

/-- The integrators after a sample. -/
def integrate : List Word → Word → List Word
  | [], _ => []
  | a :: r, x => (a + x) :: integrate r (a + x)

/-- The combs after a decimated value, and their output. -/
def combs : List Word → Word → List Word × Word
  | [], c => ([], c)
  | a :: r, c =>
    let (r', y) := combs r (c - a)
    (c :: r', y)

/-- Σ c[j] × d[j]. -/
def dot : List Int → List Int → Int
  | c :: cs, d :: ds => c * d + dot cs ds
  | _, _ => 0

/-- A stage's output, before it is clamped. -/
def fir (c : List Int) (sh : Nat) (line : List Int) (bypass : Int) : Int :=
  if c.isEmpty then bypass else shiftR (dot c line) sh

def Chain.slot (c : Chain) : Nat := if c.bankB then c.slotB else c.slotA
def Chain.inSlot (c : Chain) : Nat := if c.bankB then c.slotA else c.slotB

/-- A synchronising reset (R157) after the sample at index `i`; a running fade ends with the incoming bank (R158). -/
def Chain.reset (c : Chain) (i n : Nat) : Chain :=
  { c with integ := [0, 0, 0, 0, 0], comb := [0, 0, 0, 0, 0], line := [], d1 := [], d2a := [], d2i := [], clamp := false,
           runLen := 0, stuck := [], frzN := 0, frzS1 := 0, frzS2 := 0, frzBad := false, ninv := n, since := i + 1, tail := none,
           bankB := if c.fade.isSome then !c.bankB else c.bankB, fade := none }

/-- What the chain is to be configured to, once every change under way has taken effect. -/
def Chain.wanted (c : Chain) : ChainCfg := (c.change.getLast?.map (·.2)).getD c.cfg

/-- The chain stands at an output boundary: the index of its newest output, while no further value has entered FIR2
(R146, DEDUCED, log entry 127). -/
def Chain.boundary (c : Chain) (p : Preset) : Option Nat :=
  c.ix.bind fun i =>
    let b := i / (p.ms * p.m1) * (p.ms * p.m1)
    if b % (p.ms * p.m1 * p.m2) = 0 then some b else none

/-- The slots that a chain holds: its active bank's, the incoming one's and that of a request. -/
def Chain.holds (c : Chain) (slot : Nat) : Bool :=
  c.slot == slot || (c.fade.isSome && c.inSlot == slot) || (c.swap.map (·.1)) == some slot || c.wanted.pslot == slot

/-- What the arithmetic needs of the parameters in force. -/
structure ChainEnv where
  p : Preset
  act : CoefSet
  inc : CoefSet
  ovrPct : Nat
  frzWin : Nat
  frzVar : Nat                     -- taken by a window as it begins (Table 04-13)
  fs : F32
  ofs : F32
  rel : Nat
  valid : Bool                     -- a REF output carries V = 0 before control time is valid (R138)
  deriving DecidableEq, Repr

/-- The tag instant t_s in TBASE ticks (R152). -/
def tagTime (i : Nat) (cfg : ChainCfg) (tau : Nat) : Int :=
  let num := (((i : Int) - cfg.delay) * 256 - tau) * cfg.tIn - cfg.skew * 256
  (2 * (num * 5) + 2048) / 4096

/-- An interval list still overlaps the window that ends at `hi` and begins at `lo`. -/
def overlaps (spans : List (Nat × Nat)) (lo hi : Int) : Bool :=
  spans.any fun s => decide ((s.1 : Int) ≤ hi) && decide (lo ≤ (s.2 : Int))

/-- The frozen check of R164 after an output. -/
def Chain.freeze (c : Chain) (e : ChainEnv) (y : Int) (clean : Bool) : Chain × List Nat :=
  let s1 := c.frzS1 + y
  let s2 := c.frzS2 + y * y
  let bad := c.frzBad || !clean
  let n := c.frzN + 1
  if n < c.frzW then ({ c with frzN := n, frzS1 := s1, frzS2 := s2, frzBad := bad }, [])
  else
    let w : Int := (c.frzW : Nat)
    let frozen := !bad && decide (c.frzV ≠ 0) && decide (w * s2 - s1 * s1 < (c.frzV : Int) * w * w)
    let frz := if bad then c.frz else frozen
    let var := (w * s2 - s1 * s1).toNat
    ({ c with frzN := 0, frzS1 := 0, frzS2 := 0, frzBad := false, frzW := e.frzWin, frzV := e.frzVar, frz := frz,
              nFrz := if frz && !c.frz then c.nFrz + 1 else c.nFrz, var := BitVec.ofNat 32 (min var 0xFFFFFFFF) },
      if frz && !c.frz then [Ev.MEAS_FROZEN] else [])

/-- A stage sample kept for the recorder where it watches that class (Table 11-1). -/
def Chain.keep (c : Chain) (cls ix : Nat) (t : Int) (v : F32) (raw : Int) (tag : Nat) (ok : Bool) : Chain :=
  if bitN c.tap cls then { c with taps := c.taps ++ [Tap.mk cls ix t v raw tag ok] } else c

/-- The length of the input window of the next output: that of the longest response at work in it, the old set's among them
while FIR2 still holds its values (R136, R146, R162). -/
def Chain.window (c : Chain) (e : ChainEnv) : Nat :=
  max (lIn e.p e.act) (max (if c.fade.isSome then lIn e.p e.inc else 0) ((c.tail.map (·.1)).getD 0))

/-- An output at index `i`. Until a fade ends, the gain is that of the active bank's set: R155 does not say which one
converts the outputs of a fade (DESIGN CHOICE, log entry 125). -/
def Chain.emit (c : Chain) (e : ChainEnv) (i : Nat) (y1a y1i : Int) : Chain × List Nat :=
  let ya := fir e.act.c2 e.act.sh2 c.d2a y1a
  let yi := fir e.inc.c2 e.inc.sh2 c.d2i y1i
  let cl := c.clamp || sat24 ya != ya || (c.fade.isSome && sat24 yi != yi)
  let (y, late, fading) := match c.fade with
    | some (j, f) =>
      let w := (j + 1) * 65536 / max f 1
      (sat24 ya + ((w : Int) * (sat24 yi - sat24 ya)) / 65536, decide (32768 ≤ w), true)
    | none => (sat24 ya, false, false)
  let tau := tau256 e.p (if late then e.inc else e.act)
  let hi : Int := (i : Int) - c.cfg.delay
  let lo := max (hi - (c.window e : Nat) + 1) (c.since : Int)
  let valid := e.valid && c.ninv == 0
  let subst := overlaps c.substs lo hi
  let stk := overlaps c.stuck lo hi
  let tag := bit01 valid + 2 * bit01 subst + 4 * bit01 cl + 8 * bit01 stk + 16 * bit01 c.frz + 32 * bit01 c.ovr
    + 64 * bit01 c.bankB + 128 * bit01 fading
  let v := f32mul e.fs (f32sub (f32mul (f32ofInt y) c.g) e.ofs)
  let t := tagTime i c.cfg tau
  let ok := valid && !subst && !cl && !stk && !c.frz && !c.ovr
  let keep := fun (s : Nat × Nat) => decide (hi - (lInMax e.p : Nat) + 1 ≤ (s.2 : Int))
  let c := { c with outs := (Sample.mk v y tag t e.rel :: c.outs).take 8, oks := if ok then (Sample.mk v y tag t e.rel :: c.oks).take 1024 else c.oks,
                    lastV := if valid then some e.rel else c.lastV, clamp := false,
                    tail := c.tail.bind fun x => if x.2 ≤ 1 then none else some (x.1, x.2 - 1),
                    nOut := c.nOut + 1, nSat := if cl then c.nSat + 1 else c.nSat, substN := if subst then c.substN + 1 else c.substN, ninv := c.ninv - 1, stuck := c.stuck.filter keep, substs := c.substs.filter keep }
  let c := c.keep 0 (i / mTot e.p) (t * 256) v y tag ok
  let (c, ev) := c.freeze e y (valid && !subst)
  let ev := if cl then Ev.MEAS_SATURATED :: ev else ev
  match c.fade with
  | some (j, f) =>
    if f ≤ j + 1 then ({ c with fade := none, bankB := !c.bankB, d2a := c.d2i, g := gainInv e.p e.inc }, Ev.MEAS_BANK_DONE :: ev)
    else ({ c with fade := some (j + 1, f) }, ev)
  | none => (c, ev)

/-- The overrange check on a sinc output (R163). -/
def Chain.overrange (c : Chain) (e : ChainEnv) (y : Int) : Chain × List Nat :=
  if e.ovrPct * e.p.ms ^ e.p.k < y.natAbs * 100 then
    let r := c.ovrRun + 1
    ({ c with ovrRun := r, ovrOk := 0, ovr := c.ovr || decide (4 ≤ r), nOvr := if 4 ≤ r ∧ !c.ovr then c.nOvr + 1 else c.nOvr }, if 4 ≤ r ∧ !c.ovr then [Ev.MEAS_OVERRANGE] else [])
  else
    let r := c.ovrOk + 1
    ({ c with ovrRun := 0, ovrOk := r, ovr := c.ovr && decide (r < 16) }, [])

/-- One input sample (R142), with the stuck run (R162) and the faulty condition (R165). -/
def Chain.sample (c : Chain) (e : ChainEnv) (i : Nat) (bit : Bool) : Chain × List Nat :=
  let r := if bit == c.runVal && decide (0 < c.runLen) then c.runLen + 1 else 1
  let stuck := if r = 64 then (i, i) :: c.stuck
    else if 64 < r then match c.stuck with
      | (a, _) :: q => (a, i) :: q
      | [] => [(i, i)]
    else c.stuck
  let ev := if r = 64 then [Ev.MEAS_STUCK] else []
  let x : Int := if bit then 1 else -1
  let xd := if c.cfg.delay = 0 then x else c.line.getD (c.cfg.delay - 1) 0
  let c := { c with ix := some i, runVal := bit, runLen := r, stuck := stuck, nStk := if r = 64 then c.nStk + 1 else c.nStk, line := if c.cfg.delay = 0 then [] else (x :: c.line).take c.cfg.delay,
                    integ := integrate (c.integ.take e.p.k) (BitVec.ofInt 32 xd) }
  let (c, ev) :=
    if i % e.p.ms = 0 then
      let (cb, y) := combs (c.comb.take e.p.k) (c.integ.getLastD 0)
      let (c, ev') := ({ c with comb := cb }).overrange e y.toInt
      let y0 := shiftR y.toInt e.p.sh0
      let c := { c with d1 := (sat24 y0 :: c.d1).take 255, clamp := c.clamp || sat24 y0 != y0 }
      let c := c.keep 2 (i / e.p.ms) (tagTime i c.cfg (e.p.k * (e.p.ms - 1) * 128) * 256) (f32ofInt (sat24 y0)) (sat24 y0) 1 true
      let ev := ev' ++ ev
      if i % (e.p.ms * e.p.m1) = 0 then
        let ya := fir e.act.c1 e.act.sh1 c.d1 (sat24 y0)
        let yi := if c.fade.isSome then fir e.inc.c1 e.inc.sh1 c.d1 (sat24 y0) else 0
        let c := { c with d2a := (sat24 ya :: c.d2a).take 255, d2i := if c.fade.isSome then (sat24 yi :: c.d2i).take 255 else c.d2i,
                          clamp := c.clamp || sat24 ya != ya || sat24 yi != yi }
        let c := c.keep 1 (i / (e.p.ms * e.p.m1)) (tagTime i c.cfg (tau256 e.p { e.act with c2 := [] }) * 256) (f32ofInt (sat24 ya)) (sat24 ya) 1 true
        if i % mTot e.p = 0 then
          let (c, ev') := c.emit e i (sat24 ya) (sat24 yi)
          (c, ev' ++ ev)
        else (c, ev)
      else (c, ev)
    else (c, ev)
  let now := decide (64 ≤ c.runLen) || c.frz
  let t := i * c.cfg.tIn
  ({ c with faulty := now, faultAt := if now && !c.faulty then t else c.faultAt,
            entries := if now && !c.faulty then t :: c.entries.filter (fun x => decide (t < x + 10000000000)) else c.entries }, ev)

/-! ## Edge branch (R160, R161) -/

/-- An FP32 value times an integer ratio, floored after doubling and adding one half: round_half_up(v × n / q). -/
def f32RatRound (v : F32) (n q : Int) : Int :=
  let x := f32floor 40 v            -- v × 2^40, exact below 2^-40
  (2 * x * n + q * 2 ^ 40) / (2 * q * 2 ^ 40)

/-- What the branch needs: M_e, T_in, θ and o_e, whether it is suspended, and the release in units of 0.5 µs. -/
structure EdgeEnv where
  me : Nat
  tIn : Nat
  theta : Int
  oe : Int
  susp : Bool
  rel : Nat
  deriving DecidableEq, Repr

/-- One sample of the edge branch at index `i`. -/
def Chain.edge (c : Chain) (e : EdgeEnv) (i : Nat) (bit : Bool) : Chain :=
  let c := { c with eInteg := integrate c.eInteg (BitVec.ofInt 32 (if bit then 1 else -1)) }
  if i % e.me ≠ 0 then c
  else
    let (cb, u) := combs c.eComb (c.eInteg.getLastD 0)
    let w := u.toInt - e.oe
    -- t(j) − 1.5 (M_e − 1) T_in, in 1/256 tick
    let tj : Int := (2 * (i : Int) - 3 * ((e.me : Int) - 1)) * e.tIn * 80
    let c' := { c with eComb := cb, wPrev := some w }.keep 3 (i / e.me) tj (f32ofInt u.toInt) u.toInt 1 true
    match c.wPrev with
    | some v =>
      let a := (v.natAbs : Int)
      let b := (w.natAbs : Int)
      let up := decide (a < e.theta) && decide (e.theta ≤ b)
      let dn := decide (e.theta ≤ a) && decide (b < e.theta)
      if e.susp || !(up || dn) then c'
      else
        let t1 : Int := ((i - e.me : Nat) : Int) * e.tIn
        -- ticks: 5/8 of (t(j−1) + 160 (θ − a) / (b − a) − 1.5 (M_e − 1) T_in), in ns
        let num := (2 * t1 - 3 * ((e.me : Int) - 1) * e.tIn) * (b - a) + 320 * (e.theta - a)
        let den := 2 * (b - a)
        let (num, den) := if den < 0 then (-num, -den) else (num, den)
        let t := (2 * num * 5 + den * 8) / (2 * den * 8)
        let lo : Int := (i : Int) - 4 * e.me + 3      -- the first sample of window j − 1
        let r : EdgeRec := ⟨up, if up then decide (w < 0) else decide (v < 0), overlaps c.substs lo i || overlaps c.stuck lo i, e.theta.toNat, t, e.rel⟩
        { c' with ring := (r :: c.ring).take 4, edgeN := c.edgeN + 1, edges := c.edges ++ [r] }
    | none => c'

end Sys2Proof.Machine
end

