-- ==== Sys2Proof/Machine/FabricOps.lean ====
section
/-!
DEFINITION. Machine/FabricOps.lean: what the fabric's commands share: lanes leaving and reaching UP, link widths and
LINK_STATE (R281, R291, R293), block errors (R290), routing and the numbered blocks of MESSAGE and BULK units
(R271, R277, R278), and the exchange plan of a ring (R279 to R285).
-/
namespace Sys2Proof.Machine

open Sys2Proof

/-- The width of a port: full when both lanes are UP and report the same partner device (R272). -/
def Dev.widthOf (d : Dev) (p : Nat) : Nat :=
  match d.upLanes p with
  | [] => 0
  | [_] => 1
  | _ => if (d.lane (2 * p)).partner.map (·.addr) = (d.lane (2 * p + 1)).partner.map (·.addr) then 2 else 1

/-! ## Routing (R278) -/

/-- The twin's address. -/
def Dev.twinAddr (d : Dev) : Option Nat := (d.partner 2).map (·.addr)

/-- Hops to a device by a port, 1 to its direct partner. -/
def Dev.hopsBy (d : Dev) (p dest : Nat) : Option Nat :=
  if !d.linkUp p then none
  else if (d.partner p).map (·.addr) = some dest then some 1
  else match d.fab.routes.find? (fun r => r.dest == dest) with
    | some r => if p = 0 then r.e else if p = 1 then r.w else if p = 3 then r.u else none
    | none => none

/-- The fewest hops, E before W before U; port T to the twin, or where the only route runs through it. -/
def Dev.routePort (d : Dev) (dest : Nat) : Option Nat :=
  if d.twinAddr = some dest ∧ d.linkUp 2 then some 2
  else
    let best := [0, 1, 3].foldl (fun b p => match d.hopsBy p dest with
      | none => b
      | some h => match b with
        | none => some (h, p)
        | some (h', p') => if h < h' then some (h, p) else some (h', p')) (none : Option (Nat × Nat))
    match best with
    | some (_, p) => some p
    | none =>
      if d.linkUp 2 && (d.fab.routes.any fun r => r.dest == dest && r.viaTwin) then some 2 else none

/-! ## Numbered blocks (R277) -/

/-- Numbered blocks queued on a port; they leave as R276 and R277 let them. -/
def Dev.sendBlocks (d : Dev) (p : Nat) (bs : List TxBlock) : Dev :=
  let l := d.link p
  d.setLink p { l with queue := l.queue ++ bs, queuedAt := 160 * d.clk }

/-- The blocks of a unit. -/
def unitBlocks (u : FabUnit) : List TxBlock := (List.range (ceilDiv u.len 64)).map fun i => ⟨u, i⟩

/-- A unit on its way to one device; without a route it is lost. -/
def Dev.forward (d : Dev) (dest : Nat) (u : FabUnit) : Dev :=
  match d.routePort dest with
  | some p => d.sendBlocks p (unitBlocks u)
  | none => d

/-- A broadcast on the ring and spine ports in `ports`, each once (R278). -/
def Dev.castOn (d : Dev) (u : FabUnit) (ports : List Nat) : Dev :=
  let seen := ((d.fab.casts.find? fun c => c.1 == u.src && c.2.1 == u.id).map (·.2.2)).getD 0
  let go := ports.filter fun p => d.linkUp p && !bitN seen p
  let mask := maskOf 4 fun p => bitN seen p || go.contains p
  let rest := d.fab.casts.filter fun c => !(c.1 == u.src && c.2.1 == u.id)
  let d := { d with fab := { d.fab with casts := (u.src, u.id, mask) :: rest } }
  go.foldl (fun d p => d.sendBlocks p (unitBlocks u)) d

/-- A unit of the device's own: the hop limit starts at 255 (DEDUCED, log entry 41). -/
def Dev.sendUnit (d : Dev) (bulk : Bool) (kind : Nat) (dest : Option Nat) (len : Nat) (body : FabBody) : Dev :=
  let u : FabUnit := ⟨bulk, kind, dest, d.addr, 255, d.fab.nextId, len, body⟩
  let d := ({ d with fab := { d.fab with nextId := (d.fab.nextId + 1) % 2 ^ 32 } }).emit (.made u)
  match dest with
  | some a => d.forward a u
  | none => d.castOn u [0, 1, 3]

/-- A unit to the twin, over port T; none leaves while no lane of it is up. -/
def Dev.toTwin (d : Dev) (kind len : Nat) (body : FabBody) : Dev :=
  if d.linkUp 2 && d.twinAddr.isSome then d.sendUnit false kind d.twinAddr len body else d

/-- Retransmission from the first unacknowledged block (R277). -/
def Dev.retransmit (d : Dev) (p : Nat) : Dev :=
  let l := d.link p
  d.setLink p { l with again := l.unacked.length, sentAt := d.clk, queuedAt := 160 * d.clk }

/-- The acknowledged blocks released: those up to sequence number `seq`. -/
def Dev.release (d : Dev) (p seq : Nat) : Dev :=
  let l := d.link p
  let n := (seq + 257 - l.base) % 256
  if n = 0 ∨ l.unacked.length < n then d
  else d.setLink p { l with base := (l.base + n) % 256, unacked := l.unacked.drop n, again := min l.again (l.unacked.length - n),
                            sentAt := d.clk, queuedAt := 160 * d.clk }

/-- Tunnelled commands whose destination has lost its route complete with TIMEOUT (R389). -/
def Dev.tunnelLost (d : Dev) : Dev :=
  d.host.tunnelled.foldl (fun (d : Dev) f =>
    if f.result.isSome || (d.routePort f.dest).isSome then d
    else
      let fs := d.host.tunnelled.map fun g => if g = f then { g with result := some (d.addr, stRes Sc.TIMEOUT) } else g
      ({ d with host := { d.host with tunnelled := fs, tunTimeouts := d.host.tunTimeouts + 1 } }).raise Ev.MBX_TUNNEL_TIMEOUT f.tag) d

/-- The unacknowledged blocks of a link that went down go over the new routes (R278); its other blocks are lost (R277). -/
def Dev.reroute (d : Dev) (p : Nat) : Dev :=
  let l := d.link p
  let d := d.setLink p { l with base := (l.base + l.unacked.length) % 256, unacked := [], again := 0, queue := [], tx := [] }
  (l.unacked ++ l.queue).foldl (fun d b => match b.unit.dest.bind d.routePort with
    | some q => if q = p then d else d.sendBlocks q [b]
    | none => d) d

/-! ## Link states (R281, R291, R293) -/

/-- A change of a link becomes known: its apply cycle is scheduled. -/
def Dev.learn (d : Dev) (c : LinkChange) : Dev :=
  { d with fab := { d.fab with known := d.fab.known.set (4 * c.seg + c.port) c, plans := d.fab.plans ++ [c] } }

/-- A change of a link of the device's own, flooded in both directions around the ring. -/
def Dev.flood (d : Dev) (p width : Nat) : Dev :=
  let c : LinkChange := ⟨d.boot.segId, p, width, d.cyc.k + 4⟩
  let d := d.learn c
  [0, 1].foldl (fun d q => d.give q (.linkState c)) d

/-- A link's width after one of its lanes changed. A lost lane counts at once; a lane that returned beside the other
counts from the apply cycle. -/
def Dev.linkUpdate (d : Dev) (p : Nat) : Dev :=
  let l := d.link p
  let w := d.widthOf p
  if w = l.width then d
  else if w = 2 ∧ l.width = 1 then d.flood p 2
  else
    let d := d.setLink p { l with width := w, reported := w == 0, started := if w = 0 then l.started else none }
    let d := if w = 0 then ((d.reroute p).raise Ev.FAB_LINK_DOWN p).tunnelLost
      else if l.width = 2 then d.raise Ev.FAB_HALF_WIDTH p
      else d
    d.flood p w

/-- The widths of the ring's links as a change names them: port E of SEG_ID i is link i, port W link i − 1. -/
def ringLink (n : Nat) (c : LinkChange) : Option Nat :=
  if c.port = 0 then some c.seg else if c.port = 1 then some ((c.seg + n - 1) % n) else none

/-! ## Lanes (R272, R273, R290) -/

/-- A lane leaves UP: EV_FAB_LANE_DOWN, and LANE_CMD DOWN on the surviving lane (R291). -/
def Dev.leaveUp (d : Dev) (n : Nat) (l : Lane) : Dev :=
  let o := otherLane n
  let d := (d.setLane n { l with lossAt := some d.clk, began := d.clk, badRun := 0, accepted := false, results := [] }).raise Ev.FAB_LANE_DOWN n
  let d := if (d.lane o).stage == .up then d.sendNow o (d.instant 0) (.laneCmd .down) else d
  d.linkUpdate (n / 2)

/-- The identity that a lane sends in its HELLO stage (Table 08-4). -/
def Dev.ownIdent (d : Dev) (n : Nat) : Ident :=
  ⟨d.addr, d.letterB, d.boot.segId, d.firstArm, n / 2, n % 2, d.pni P.fab_rate (n / 2), 1⟩

/-- The HELLO of a lane in bring-up or at the end of a fast retrain; it comes once, and stands for the blocks that repeat it (R265, R273,
DESIGN CHOICE, log entry 139). -/
def Dev.sendHello (d : Dev) (n : Nat) : Dev := d.sendNow n (160 * d.clk) (.hello (d.ownIdent n))

/-- A fast retrain of a lane in UP (R273). -/
def Dev.fastRetrain (d : Dev) (n : Nat) (own : Bool) : Dev :=
  let l := d.lane n
  if l.stage == .up then
    let d := if own then d.sendNow n (d.instant 0) (.laneCmd .retrain) else d
    ((d.emit (.training n)).leaveUp n { l with stage := .block, fast := true, retrains := l.retrains + 1 }).sendHello n
  else d

/-- A full bring-up from DETECT. -/
def Dev.fullBringup (d : Dev) (n : Nat) : Dev :=
  let l := d.lane n
  d.setLane n { l with stage := .detect, fast := false, idle := false, began := d.clk, accepted := false, results := [],
                       bringups := l.bringups + 1 }

/-- A lane is retired, across resets too (R290). -/
def Dev.retireLane (d : Dev) (n : Nat) : Dev :=
  let l := d.lane n
  if l.stage == .retired then d
  else
    let d := if l.stage == .up then d.leaveUp n { l with stage := .retired } else d
    let l := d.lane n
    (({ d with par := { d.par with retLanes := maskOf 8 fun i => i == n || bitN d.par.retLanes i } }).setLane n
      { l with stage := .retired, idle := true, fast := false, lossAt := none }).raise Ev.FAB_LANE_RETIRED n

/-- A lane: a retired one stays out of use (R463). -/
def Dev.startLane (d : Dev) (n : Nat) : Dev :=
  d.setLane n { d.lane n with stage := if bitN d.par.retLanes n then .retired else .detect, began := d.clk }

/-- The link of an enabled fabric port starts bring-up (R293). -/
def Dev.startLink (d : Dev) (p : Nat) : Dev :=
  if d.portEnabled p then d.setLink p { d.link p with started := some d.clk } else d

/-- A port's rate or enable has changed in DE-ENERGISED (Table 08-12): its lanes bring up anew, or lie in electrical idle (R275). -/
def Dev.portSet (d : Dev) (p : Nat) : Dev :=
  let d := [2 * p, 2 * p + 1].foldl (fun (d : Dev) n =>
    let l := d.lane n
    let d := if l.stage == .up then d.leaveUp n { l with stage := .detect } else d
    let d := if (d.lane n).stage == .retired then d else d.fullBringup n
    let x := d.lane n
    d.setLane n { x with lossAt := none, partner := none, idle := x.idle || !d.portEnabled p }) d
  (d.setLink p { d.link p with started := none, reported := false }).startLink p

/-- Good data blocks on a lane. -/
def Dev.goodBlocks (d : Dev) (n k : Nat) : Dev :=
  let l := d.lane n
  d.setLane n { l with rx := l.rx + BitVec.ofNat 32 k, bucket := l.bucket - k, badRun := 0, busyAt := d.clk }

/-- A bad block (R290, R273): 64 in the bucket, retired at fab.err_limit, retrained after 8 in a row. -/
def Dev.badBlock (d : Dev) (n : Nat) (kind : BadBlock) : Dev :=
  let l := d.lane n
  let l := { l with bucket := min 65535 (l.bucket + 64), badRun := l.badRun + 1,
                    crcErr := if kind = .crc then l.crcErr + 1 else l.crcErr,
                    markErr := if kind = .marker then l.markErr + 1 else l.markErr }
  let d := d.setLane n l
  if d.pn P.fab_err_limit ≤ l.bucket then d.retireLane n
  else if 8 ≤ l.badRun then d.fastRetrain n true
  else d

/-! ## The exchange plan of a ring of n devices (R279 to R285) -/

/-- Q of Table 08-6. -/
def planQ (n : Nat) : Nat := [0, 0, 1, 1, 1, 2, 2, 3, 3, 4, 4, 5, 5, 5, 6, 6, 7].getD n 7

/-- Width of ring link i under `ws`. -/
def ringWidth (ws : Tab Nat) (i : Nat) : Nat := ws.get 2 i

/-- Links passed from position `i` going east until one is down, at most n − 1. -/
def eastRun (ws : Tab Nat) (n : Nat) : Nat → Nat → Nat
  | 0, _ => 0
  | fuel + 1, i => if ringWidth ws i = 0 then 0 else 1 + eastRun ws n fuel ((i + 1) % n)

def westRun (ws : Tab Nat) (n : Nat) : Nat → Nat → Nat
  | 0, _ => 0
  | fuel + 1, i => if ringWidth ws ((i + n - 1) % n) = 0 then 0 else 1 + westRun ws n fuel ((i + n - 1) % n)

/-- The reach (e_s, w_s) of source `s` under widths `ws`. -/
def reach (ws : Tab Nat) (n s : Nat) : Nat × Nat :=
  if n ≤ 1 then (0, 0)
  else
    let links := List.range n
    let e := n / 2
    let w := (n - 1) / 2
    if links.any (fun i => ringWidth ws i == 0) then (eastRun ws n (n - 1) s, westRun ws n (n - 1) s)
    else match links.find? (fun i => ringWidth ws i == 1) with
      | none => (e, w)
      | some x =>
        if n = 2 then (e, w)
        else
          let r := (s + n - (x + 1) % n) % n
          let q := planQ n
          if r + 1 ≤ q ∨ n ≤ r + q then (e, w) else (n - 1 - r, r)

/-- The reach of the unit of segment `s` in an exchange over `n` devices: the plan of the arm ring, or in a multi-arm ring the line over
the arm's adjacent devices, whose segment indices ascend going east (R284; DEDUCED, log entry 132). -/
def Dev.reachOf (d : Dev) (n s : Nat) : Nat × Nat := if d.armRing then reach d.fab.ring n s else (n - 1 - s, s)

/-- The latest arrival at `me` of the unit of `s` travelling east or west, ps after t_k (R282); none when it does not
reach `me` that way. -/
def arrival (ws : Tab Nat) (n me s : Nat) (east : Bool) : Option Nat :=
  let dist := fun a => if east then (me + n - a) % n else (a + n - me) % n
  let reaches := fun a => decide (0 < dist a) && decide (dist a ≤ if east then (reach ws n a).1 else (reach ws n a).2)
  if reaches s then
    let pos := ((List.range n).filter fun a => reaches a && decide (dist a ≤ dist s)).length
    let link := if east then (me + n - 1) % n else me
    let j := if ringWidth ws link = 2 then ceilDiv pos 2 else pos
    some (285000 + (3 * j + 1) * 50080)
  else none

/-- The path of the unit of `s` to `me` crosses a link that is down. -/
def crossesDown (now : Tab Nat) (n me s : Nat) (east : Bool) : Bool :=
  let len := if east then (me + n - s) % n else (s + n - me) % n
  let start := if east then s else me
  (List.range len).any fun i => ringWidth now ((start + i) % n) == 0

/-- The segments that a device names in its WANT block (R285): those whose arrival bound under the plan in force lies
after t_kx, or whose path crosses a link known to be down. -/
def wanted (plan now : Tab Nat) (n me : Nat) : List Nat :=
  (List.range n).filter fun s =>
    s != me && !([true, false].any fun east => match arrival plan n me s east with
      | some t => decide (t ≤ tKxPs n) && !crossesDown now n me s east
      | none => false)

/-- The widths last known of the ring's links. -/
def Dev.knownWidths (d : Dev) (n : Nat) : Tab Nat :=
  d.fab.known.foldl (fun (ws : Tab Nat) c => match ringLink n c.2 with
    | some i => ws.set i c.2.width
    | none => ws) []

end Sys2Proof.Machine
end

