-- ==== Sys2Proof/Machine/UnitOps.lean ====
section
/-!
DEFINITION. Machine/UnitOps.lean: what the units of the device share: its place in the converter, its twin state, the
downlink frames of the cell ports, failing cells and ports, and the effects of a control-time step.
-/
namespace Sys2Proof.Machine

open Sys2Proof

/-! ## Place in the converter (R21, R35, R551) -/

def Dev.cell (d : Dev) (p : Nat) : CellRec := d.cyc.cells.get {} p
def Dev.setCell (d : Dev) (p : Nat) (c : CellRec) : Dev := { d with cyc := { d.cyc with cells := d.cyc.cells.set p c } }
def Dev.chain (d : Dev) (n : Nat) : Chain := d.meas.ch.get {} n
def Dev.setChain (d : Dev) (n : Nat) (c : Chain) : Dev := { d with meas := { d.meas with ch := d.meas.ch.set n c } }

/-- A cell is configured on the port. -/
def Dev.cellAt (d : Dev) (p : Nat) : Bool := d.portArm p < 6 && bitN (d.pn P.link_port_enable) p

/-- In SIMCELL a model in the cell-port logic takes the place of the cell, unless a live cell head has been found (R481). -/
def Dev.simCell (d : Dev) (p : Nat) : Bool := d.mode.test == .simcell && d.cellAt p && !bitN d.mode.simLive p

/-- The own cells of an arm in ascending port order, and the groups of up to four (R236). -/
def Dev.cellsOf (d : Dev) (a : Nat) : List Nat := (List.range 48).filter fun p => d.portArm p == a && d.cellAt p
def chunks4 : Nat → List Nat → List (List Nat)
  | 0, _ => []
  | n + 1, l => if l.isEmpty then [] else l.take 4 :: chunks4 n (l.drop 4)
def Dev.groups (d : Dev) : List (Nat × List Nat) := d.arms.flatMap fun a => (chunks4 12 (d.cellsOf a)).map fun g => (a, g)

/-- This device, or its twin, is the lead of an arm, and the converter lead (R21). -/
def Dev.leadsArm (d : Dev) (a : Nat) : Bool := d.arms.contains a && d.segIn a == d.pni P.mode_arm_lead_seg a
def Dev.convLead (d : Dev) : Bool :=
  d.arms.contains (d.pn P.mode_lead_arm) && d.segIn (d.pn P.mode_lead_arm) == d.pn P.mode_lead_seg

/-! ## Addresses in the converter (R278, R551) -/

/-- The address of a device named by arm, segment index and twin letter: a direct partner's, or one of the routes. -/
def Dev.findDev (d : Dev) (arm seg : Nat) (twinB : Bool) : Option Nat :=
  match [0, 1, 2, 3].findSome? (fun p => match d.partner p with
      | some x => if x.arm = arm ∧ x.seg = seg ∧ x.twinB = twinB then some x.addr else none
      | none => none) with
  | some a => some a
  | none => (d.fab.routes.find? fun r => r.arm == arm && r.seg == seg && r.twinB == twinB).map (·.dest)

/-- The addresses of the twins of the converter lead, other than this device. -/
def Dev.leadAddrs (d : Dev) : List Nat :=
  [false, true].filterMap fun b =>
    if d.convLead && d.letterB == b then none else d.findDev (d.pn P.mode_lead_arm) (d.pn P.mode_lead_seg) b

/-- The port E, W or U that leads to the converter-lead twin of the own letter (R287). -/
def Dev.armRecPort (d : Dev) : Option Nat :=
  match d.findDev (d.pn P.mode_lead_arm) (d.pn P.mode_lead_seg) d.letterB with
  | some a => match d.routePort a with
    | some 2 => none
    | p => p
  | none => none

/-! ## Twin state (R301 to R305) -/

/-- Holder or solo: the sender of h = 1. -/
def Dev.holds (d : Dev) : Bool := !d.twin.strap && (d.twin.role == .holder || d.twin.role == .solo)
/-- The twin state is decided (R322). -/
def Dev.decided (d : Dev) : Bool := !d.twin.strap && d.twin.role != .joining
/-- The device sends full traffic: command frames and key blocks (R303). -/
def Dev.fullTraffic (d : Dev) : Bool :=
  d.decided && !d.cyc.segFault && !d.flt.stopped && !d.twin.lostHolder
    && (d.twin.role != .standby || d.twin.stage != .sync || d.twin.synced)

/-! ## Downlink frames (R91 to R94) -/

/-- The port carries command frames: in RUN, in every stage after its first RUN, and for one second after its retirement
(R93, R107, R126). -/
def CellPort.commands (x : CellPort) : Bool := if x.retired then !x.fillOnly else x.stage == .run || x.live

/-- A CTRL frame of this device on a port; where the epoch still waits to be raised, with the old one (R319). -/
def Dev.ctrlFrame (d : Dev) (tx : Tx) (p : Nat) (op : CtrlOp) (addr data : Nat) : DownFrame :=
  let (h, epoch) : Bool × Nat := match d.cyc.fallback with
    | some g => (g.h, g.epoch)
    | none => if (d.port p).raise.isSome then (false, d.twin.oldEpoch)
      else (d.holds && !d.cyc.segFault && !d.flt.stopped, d.twin.epoch)
  .ctrl ⟨tx.sb, h, epoch % 64, op, addr, data⟩

/-- A CTRL NOP on a port. -/
def Dev.sendNop (d : Dev) (tx : Tx) (p : Nat) : Dev := d.sendFrame tx p (d.ctrlFrame tx p .nop 0 0)

/-! ## Failing and retiring cells (R75 to R79, R126, R304) -/

/-- A cell begins to retire in the cycle in progress, or in the next one when the own block of this cycle has already
published it (R22, R67, R78). A predictive retirement goes on as one on failure when the cell fails (R77). -/
def Dev.startRetire (d : Dev) (p : Nat) (predictive : Bool) : Dev :=
  let c := d.cell p
  if bitN d.par.retCells p || c.lost || !d.cellAt p then d
  else if c.retiring.isSome then d.setCell p { c with predictive := c.predictive && predictive }
  else
    let a := d.portArm p
    let k := if (d.armSt a).own.isSome then d.cyc.k + 1 else d.cyc.k
    (d.setCell p { c with retiring := some k, predictive := predictive }).setArm a
      { d.armSt a with lastRetire := some d.clk }

/-- A change applied to a cell. -/
def Dev.applyChange (d : Dev) (c : TwinChange) : Dev :=
  match c.kind with
  | .fail | .portRetired => d.startRetire c.port false
  | .predictive on => d.setCell c.port { d.cell c.port with health := on }

/-- A decision on data that only this twin may hold: at once when there is no twin, else agreed for the current cycle + 2
(R304). -/
def Dev.agree (d : Dev) (p : Nat) (k : TwinChangeKind) : Dev :=
  if d.duplex && d.decided then
    if d.twin.changes.any (fun c => c.port == p && c.kind == k) then d
    else
      let c : TwinChange := ⟨p, k, d.cyc.k + 2⟩
      let d := { d with twin := { d.twin with changes := d.twin.changes ++ [c] } }
      d.toTwin 1 64 (.twinCmd (.change c))
  else d.applyChange ⟨p, k, d.cyc.k⟩

/-- A cell fails (R75). -/
def Dev.cellFail (d : Dev) (p : Nat) : Dev :=
  if ((d.cell p).retiring.isSome && !(d.cell p).predictive) || bitN d.par.retCells p || (d.cell p).lost || !d.cellAt p then d else d.agree p .fail

/-- A port is retired (R126); in a duplexed segment both twins retire the cell (R127). -/
def Dev.retirePort (d : Dev) (p : Nat) : Dev :=
  let x := d.port p
  if x.retired then d
  else
    let d := { d with par := { d.par with retPorts := maskOf 48 fun i => i == p || bitN d.par.retPorts i } }
    ((d.setPort p { x with retired := true, retiredAt := d.clk, retrain := none }).raise Ev.LINK_PORT_RETIRED
      (cellArg (d.portArm p) (d.portSeg p) p)).agree p .portRetired

/-- The port is retired, from the cycle on that the twins have agreed (R127). -/
def Dev.portGone (d : Dev) (p : Nat) : Bool :=
  (d.port p).retired && !d.twin.changes.any fun c => c.port == p && c.kind == .portRetired

/-- The event argument of a cell. -/
def Dev.cellEv (d : Dev) (p : Nat) : Nat := cellArg (d.portArm p) (d.portSeg p) p

/-! ## Block requests (R479, Table 15-3) -/

/-- A block cause comes into force on this device, in the cycle in progress. -/
def Dev.blockCause (d : Dev) (bit : Nat) : Dev :=
  if bitN d.mode.causes bit then d
  else { d with mode := { d.mode with causes := maskOf 16 fun i => i == bit || bitN d.mode.causes i
                                      causeAt := d.mode.causeAt.set bit d.cyc.k } }

/-- A block cause no longer holds. -/
def Dev.clearCause (d : Dev) (bit : Nat) : Dev :=
  { d with mode := { d.mode with causes := maskOf 16 fun i => i != bit && bitN d.mode.causes i } }

/-! ## Chains -/

/-- A synchronising reset of a running chain, due at its first output boundary from now on (R156, R157). -/
def Dev.resetChain (d : Dev) (n : Nat) : Dev :=
  let c := d.chain n
  if c.on then d.setChain n { c with change := c.change ++ [((d.ctNow * 16 / (2 ^ 32 * 10)).toNat, c.wanted)] } else d

/-- The same at a step of control time: the changes under way, whose instants were of the old control time, fall due with
it. -/
def Dev.stepChain (d : Dev) (n : Nat) : Dev :=
  let c := d.chain n
  if c.on || !c.change.isEmpty then
    d.setChain n { c with change := [((d.ctNow * 16 / (2 ^ 32 * 10)).toNat, c.wanted)], ix := none }
  else d

/-! ## What the time unit reads and does -/

/-- One-way delay of a lane, ps. -/
def Dev.laneDelay (d : Dev) (n : Nat) : Nat := (d.lane n).delay

/-- The time unit's number of fabric port `p` (0 E, 1 W, 2 T, 3 U): 0 E, 1 W, 2 U, 3 T. -/
def timePort (p : Nat) : Nat := if p = 2 then 3 else if p = 3 then 2 else p

/-- The time unit's port is UP. -/
def Dev.timePortUp (d : Dev) (q : Nat) : Bool := d.linkUp (if q = 2 then 3 else if q = 3 then 2 else q)

/-- The order distance of this device to the configured time root: arms in their order, the root's first (R345, R346). -/
def Dev.rootDistance (d : Dev) : Option Nat :=
  match d.arms.find? (fun a => d.leadsArm a) with
  | some a => some ((a + 6 - d.pn P.time_root_arm) % 6)
  | none => none

/-- An arm-lead holder or solo arm lead. -/
def Dev.leads (d : Dev) : Bool := d.holds && d.arms.any d.leadsArm

/-- This device, or its pair, is the configured time root (R21). -/
def Dev.rootPair (d : Dev) : Bool :=
  d.arms.contains (d.pn P.time_root_arm) && d.segIn (d.pn P.time_root_arm) == d.pn P.time_root_seg

/-- Control time has moved by `delta` ticks: what the cells have been commanded keeps its physical instants, and the
transitions and insertions under way are judged no more (R63, R339, R344; DEDUCED, log entry 122). -/
def Dev.ctMoved (d : Dev) (delta : Int) : Dev :=
  if delta = 0 then d
  else { d with cyc := { d.cyc with cells := d.cyc.cells.map fun (x : Nat × CellRec) =>
    let c := x.2
    (x.1, { c with lastInst := max (-1) (c.lastInst + delta), prev := none, sched := c.sched.map (fun y => (y.1 + delta, y.2)), trans := [], capQ := [],
                   capLast := none, open_ := none, firstCmd := c.firstCmd.map (· + delta), unexp := c.unexp.map (· + delta) }) } }

/-- A control-time step outside DE-ENERGISED (R339): the chains are reset, the cycle counts as an overrun, and the cells
are unusable until they have been aligned again. -/
def Dev.ctStepped (d : Dev) : Dev :=
  let d := (List.range 104).foldl (fun d n => d.stepChain n) d
  let d := (List.range 48).foldl (fun d p =>
    if (d.port p).stage == .run then d.setPort p { d.port p with mustAlign := true, realign := some 16 } else d) d
  { d with cyc := { d.cyc with cause := { d.cyc.cause with crit := true } } }

end Sys2Proof.Machine
end

