-- ==== Sys2Proof/Machine/Ports.lean ====
section
/-!
DEFINITION. Machine/Ports.lean: the cell ports: bring-up, downlink CTRL traffic, uplink frames, delay tracking, errors
and retirement (R85 to R129), and the safety block on every port (R94, R437).
-/
namespace Sys2Proof.Machine

open Sys2Proof

/-! ## Delays of a port (R74, R102, R134), ps -/

def CellPort.trx (x : CellPort) : Int := (x.caps.get 0 2 : Nat) * 100
def CellPort.ttx (x : CellPort) : Int := (x.caps.get 0 3 : Nat) * 100
/-- L. -/
def CellPort.loopPs (x : CellPort) : Int := x.loop / 1000 - x.trx - x.ttx
/-- t_down and t_up, with link.asym_ps as of the last bring-up (R129). -/
def CellPort.tDown (x : CellPort) : Int := (x.loopPs + x.asym) / 2
def CellPort.tUp (x : CellPort) : Int := (x.loopPs - x.asym) / 2
def Dev.tDown (d : Dev) (p : Nat) : Int := (d.port p).tDown
def Dev.tUp (d : Dev) (p : Nat) : Int := (d.port p).tUp

/-- Control time at an own instant in units of 0.05 ns, as ps. -/
def Dev.ctOf20 (d : Dev) (u : Nat) : Int := d.tim.ct.at ((u : Int) * 2 ^ 27 - (d.tim.tbc0 : Int) * 2 ^ 32) * 1600 / 2 ^ 32

/-- The same for an arrival, which is measured to 0.25 ns (R87). -/
def Dev.ctPs (d : Dev) (q : Nat) : Int := d.ctOf20 (5 * q)

/-- Nearest multiple. -/
def nearest (x q : Int) : Int := (2 * x + q) / (2 * q) * q

/-- The pipeline depth in force (R73). -/
def Dev.depth (d : Dev) : Nat :=
  if d.pn P.mod_depth = 0 then
    let need := 2800 + 5 * d.pn P.mod_fibre_max_m
    let tm := d.pn P.mod_t_mod_ns
    if need ≤ 2 * tm then 2 else if need ≤ 3 * tm then 3 else 4
  else d.pn P.mod_depth

/-- R134 and R74: the data frame is late for release; the fibre is too long for the pipeline. Both need CAP_TRX and
CAP_TTX: a first bring-up is judged in CAP, once they are read (DEDUCED, log entry 112). -/
def Dev.checkDelays (d : Dev) (p : Nat) : Dev :=
  let x := d.port p
  if (x.caps.find 2).isNone || (x.caps.find 3).isNone then d
  else
    let bits : Int := if d.pv P.link_double_rate = 1 then 187 else 127
    let late := decide (3400000 < x.ttx + x.tUp + bits * 4000)
    let long := decide (((d.depth * d.pn P.mod_t_mod_ns : Nat) : Int) * 1000 - 2800000 < x.tDown)
    let d' := d.setPort p { x with late := late, fibreBad := x.fibreBad || long }
    let d' := if late && !x.late then d'.raise Ev.MEAS_PORT_LATE p else d'
    if long && !x.fibreBad then d'.raise Ev.MOD_PIPELINE_FIBRE (d.cellEv p) else d'

/-! ## Bring-up (R106 to R110) -/

/-- CFG_MODE (R110). -/
def Dev.cfgMode (d : Dev) (p : Nat) : Nat :=
  let fb := bitN ((d.port p).caps.get 0 1) 0 && d.pv P.mod_cell_mix != 0
  bit01 (d.pv P.link_double_rate == 1) + 2 + 4 * bit01 d.duplex + 8 * bit01 fb

/-- The configuration writes (R110). -/
def Dev.cfgWrites (d : Dev) (p : Nat) : List (Nat × Nat) :=
  [(0x20, d.pn P.link_t_ll_us), (0x21, d.pn P.link_t_sb_ms), (0x22, d.tModTicks), (0x23, d.cfgMode p)]

/-- The CTRL operations of a stage (Table 03-5): in a retrain CAP reads 0x00 and 0x01 only (R107). -/
def Dev.stageOps (d : Dev) (p : Nat) (st : PortStage) : List (CtrlOp × Nat × Nat) :=
  match st with
  | .measure => List.replicate 16 (.echo, 0, 0)
  | .cap => if (d.port p).retrain.isSome then [(.read, 0, 0), (.read, 1, 0)] else (List.range 12).map fun a => (.read, a, 0)
  | .config => (d.cfgWrites p).map fun w => (.write, w.1, w.2)
  | .align => if d.holds then [(.syncEpoch, 0, 0), (.syncCycle, 0, 0)] else []
  | .start => if d.holds then [(.start, 0, 0)] else []
  | .off | .listen | .lock | .run => []

/-- A bring-up starts, in LISTEN or again in LOCK: the scramblers hold all ones, link.asym_ps is taken, and nothing of the
cell head's counters is known (R89, R106, R121, R129; DEDUCED, log entry 113). -/
def Dev.startBringup (d : Dev) (p : Nat) : Dev :=
  let x := d.port p
  (d.setPort p { x with rx := BitVec.allOnes 17, asym := d.pv P.link_asym_ps, items := [], itemAt := [], healthSince := none }).setDl p
    { d.dl p with scr := BitVec.allOnes 17 }

/-- A port enters a stage, with the CTRL operations that the stage sends. A repeated MEASURE keeps its time. -/
def Dev.enterStage (d : Dev) (p : Nat) (st : PortStage) : Dev :=
  let d := if (st == .listen || st == .lock) && (d.port p).retrain.isNone then d.startBringup p else d
  let x := d.port p
  let d := if st = .measure then d.setDl p { d.dl p with echo := none } else d
  d.setPort p { x with stage := st, began := if st = .measure ∧ x.stage = .measure then x.began else d.clk,
                       heard := x.stage == .listen && st == .lock, ctrl := d.stageOps p st, goodRun := 0, alignN := 0,
                       live := x.live && st != .listen,
                       spreads := if st = .lock then 0 else x.spreads,
                       echoes := if st = .measure then [] else x.echoes,
                       read := if st = .cap then [] else x.read, written := if st = .config then [] else x.written,
                       synced := if st = .align then 0 else x.synced }

/-- A port is put out of operation: it sends fill only. -/
def Dev.stopPort (d : Dev) (p : Nat) : Dev :=
  d.setPort p { d.port p with stage := .off, live := false, retrain := none, ctrl := [], lastArr := none }

/-- A cell port as the device becomes operational: a retired one stays at fill; an enabled one starts bring-up, where a
device in DUPLEX that has not decided holds it in LISTEN (R322, R463). -/
def Dev.startPort (d : Dev) (p : Nat) : Dev :=
  if bitN d.par.retPorts p then d.setPort p { d.port p with retired := true, retiredAt := d.clk, fillOnly := true }
  else if d.cellAt p then d.enterStage p .listen
  else d

/-- The capability words are accepted (R109). -/
def Dev.capOk (d : Dev) (x : CellPort) : Bool :=
  let f := x.caps.get 0 1
  let gmin := x.caps.get 0 4
  let mp := d.pn P.mod_min_pulse_ns
  fieldN (x.caps.get 0 0) 12 4 == 1 && bitN f 2 && (!d.duplex || bitN f 5) && decide (fieldN f 3 2 < 2)
    && (d.pv P.link_double_rate != 1 || bitN f 1)
    && (decide (gmin ≤ mp) || (mp == 0 && decide (gmin ≤ 40))) && decide (x.caps.get 0 9 < x.caps.get 0 10)

/-- A port goes down and retrains (R124). -/
def Dev.portDown (d : Dev) (p : Nat) : Dev :=
  let x := d.port p
  if x.stage == .run && !x.retired then
    ((d.setPort p { x with retrain := some d.clk, badRun := 0, retrains := x.retrains + 1, healthSince := none }).enterStage p .lock).raise
      Ev.LINK_DOWN (d.cellEv p)
  else d

/-- A failed retrain (R124, R125). -/
def Dev.retrainFail (d : Dev) (p : Nat) : Dev :=
  let x := d.port p
  let ts := d.clk :: x.failTimes.filter fun t => decide (d.clk < t + ticksOfS 10)
  let d := (d.setPort p { x with failTimes := ts, retrainFails := x.retrainFails + 1 }).raise Ev.LINK_RETRAIN_FAIL (d.cellEv p)
  if 8 ≤ ts.length then d.retirePort p else d

/-- MEASURE ends with 16 results (R102): a third spread above 1.0 ns fails the stage, and t_down must be at most 2,600 ns,
judged here when CAP_TRX and CAP_TTX are known (DEDUCED, log entry 112). -/
def Dev.exitMeasure (d : Dev) (p : Nat) : Dev :=
  let x := d.port p
  let lo := x.echoes.foldl min (x.echoes.getD 0 0)
  let hi := x.echoes.foldl max (x.echoes.getD 0 0)
  if x.echoes.length < 16 then d
  else if 1000 < hi - lo then
    if 2 ≤ x.spreads then d.enterStage p .lock else (d.setPort p { x with spreads := x.spreads + 1 }).enterStage p .measure
  else
    let mean := x.echoes.foldl (· + ·) 0 / (x.echoes.length : Int)
    let d := (d.setPort p { x with loop := mean * 1000, spreads := 0 }).checkDelays p
    if (x.caps.find 2).isNone || d.tDown p ≤ 2600000 then d.enterStage p .cap else d

/-- CAP ends with the words read and accepted (R107, R109). -/
def Dev.exitCap (d : Dev) (p : Nat) : Dev :=
  let x := d.port p
  if x.retrain.isSome then
    if !(x.read.contains 0 && x.read.contains 1) then d
    else if x.boots then (d.setPort p { x with retrain := none, boots := false }).enterStage p .lock
    else d.enterStage p .align
  else if !(List.range 12).all (x.read.contains ·) then d
  else if d.capOk x then
    let mix := d.pv P.mod_cell_mix == 1 && !bitN (x.caps.get 0 1) 0
    let d := d.setPort p { x with capBad := false, mixBad := mix }
    let d := if mix && !x.mixBad then d.raise Ev.MOD_CELL_MIX (d.cellEv p) else d
    let d := d.checkDelays p
    if d.tDown p ≤ 2600000 then d.enterStage p (if d.holds then .config else .align) else d
  else if x.capBad then d
  else (d.setPort p { x with capBad := true }).raise Ev.LINK_CAP_REJECT (d.cellEv p)

/-- A port reaches RUN. -/
def Dev.reachRun (d : Dev) (p : Nat) : Dev :=
  ((d.setPort p { d.port p with retrain := none, badRun := 0, live := true }).enterStage p .run).raise Ev.LINK_UP (d.cellEv p)

/-- The exit condition of a stage is met (Table 03-5). -/
def execPortStageExit (t : Nat) (port : Nat) (s : State) : Answer :=
  s.upd t (port < 48) fun _ d =>
    let x := d.port port
    if x.retired then d
    else match x.stage with
    | .off | .run => d
    | .listen => if d.decided && x.heard then d.enterStage port .lock else d
    | .lock => if 8 ≤ x.goodRun then d.enterStage port .measure else d
    | .measure => d.exitMeasure port
    | .cap => d.exitCap port
    | .config => if (d.cfgWrites port).all (fun w => x.written.contains w.1) then d.enterStage port .align else d
    | .align =>
      if 16 ≤ x.alignN then
        let d := d.setPort port { x with aim := ((d.dl port).phi : Int) * 250 + d.tDown port }
        if x.retrain.isSome then d.reachRun port else d.enterStage port .start
      else d
    | .start => if x.head = 2 ∨ (!d.holds ∧ x.head = 3) then d.reachRun port else d

/-- Stage timeouts, µs (Table 03-5). -/
def portTimeout : PortStage → Option Nat
  | .lock => some 100
  | .measure => some 400
  | .cap => some 400
  | .config => some 200
  | .align => some 200
  | .start => some 50
  | .off | .listen | .run => none

/-- A stage misses its timeout: the port restarts at LOCK (R106), whose own time runs from its first valid frame; a rejected
cell head stays in CAP (R109). -/
def execPortStageTimeout (t : Nat) (port : Nat) (s : State) : Answer :=
  s.upd t (port < 48) fun _ d =>
    let x := d.port port
    match portTimeout x.stage with
    | some us =>
      if decide (x.began + ticksOfUs us ≤ d.clk) && !x.retired && !(x.stage == .cap && x.capBad) && (x.stage != .lock || x.heard) then d.enterStage port .lock else d
    | none => d

/-- A retrain has not reached RUN within 2 ms (R124). -/
def execRetrainTimeout (t : Nat) (port : Nat) (s : State) : Answer :=
  s.upd t (port < 48) fun _ d =>
    let x := d.port port
    match x.retrain with
    | some t0 =>
      if t0 + ticksOfMs 2 ≤ d.clk ∧ x.stage ≠ .run ∧ !x.retired then
        ((d.setPort port { x with retrain := some d.clk }).enterStage port .lock).retrainFail port
      else d
    | none => d

/-! ## Downlink CTRL frames (R93, R103, R107) -/

/-- A SYNC_EPOCH frame from bit period `b` on: its first bit period, the phase-shifter setting, and n (R103). -/
def Dev.syncEpoch (d : Dev) (p b : Nat) : Option (Nat × Nat × Nat) :=
  let x := d.port p
  ([b, b + 1, b + 2].flatMap fun b => ((List.range 16).map (· + 16)).map fun phi => (b, phi)).findSome? fun c =>
    let tr := d.ctOf20 (bitStart c.1 c.2) + x.tDown + x.trx
    let e := (tr / 1000000 + 1) * 1000000
    let n := nearest (e - tr) 4000 / 4000
    if (e - tr - n * 4000).natAbs ≤ 125 ∧ 0 ≤ n ∧ n ≤ 249 then some (c.1, c.2, n.toNat) else none

/-- A SYNC_CYCLE frame from bit period `b` on: its first bit period, the cycle number, and the ticks from the first epoch
after its arrival (R103). Its 64 to 74 bits may not end on both sides of an epoch. -/
def Dev.syncCycle (d : Dev) (p b : Nat) : Option (Nat × Nat × Nat) :=
  let x := d.port p
  let tm := max d.tModTicks 1
  ((List.range 12).map (· + b)).findSome? fun b =>
    let at_ := fun (bits : Nat) (extra : Int) => (d.ctOf20 (bitStart (b + bits) (d.dl p).phi) + x.tDown + extra) / 1000000
    let e := ((at_ 64 0).toNat + 1) * 625
    if at_ 64 0 = at_ 74 x.trx then some (b, ceilDiv e tm, ceilDiv e tm * tm - e) else none

/-- A command frame of this cycle is expected on the port and not yet given. -/
def Dev.awaitsCmd (d : Dev) (p : Nat) : Bool :=
  (d.port p).commands && d.cyc.run && (d.fullTraffic || d.cyc.fallback.isSome)
    && !((d.port p).sent.any fun f => f.1 == d.cyc.k + d.depth)

/-- From t_k + 1.5 µs to the command frame of cycle k no CTRL frame starts on a port that sends one (R93): `b` is the bit
period in which it would start. -/
def Dev.ctrlClosed (d : Dev) (p b : Nat) : Bool :=
  let start := bitStart b (d.dl p).phi
  d.awaitsCmd p && decide (32 * d.cyc.tk + 30000 ≤ start) && decide (start < 32 * (d.cyc.tk + d.tModTicks))

/-- A CTRL frame of a waiting operation starts in bit period `b`, with a phase-shifter setting where it brings one. -/
def Dev.startCtrl (d : Dev) (tx : Tx) (p : Nat) (f : DownFrame) (b : Nat) (phi : Option Nat) : Dev :=
  let x := d.port p
  let d := d.setPort p { x with ctrl := x.ctrl.drop 1 }
  if d.sends tx p then d.setDl p { d.dl p with wait := (d.dl p).wait ++ [⟨f, b, phi⟩] } else d

/-- A CTRL frame starts: the operation that waits, or NOP (R93). Where a frame already waits on the port, that one keeps
the 2 µs. Holder operations wait while this device is not the holder, and an ECHO while another one is under way. -/
def execCtrlFrameSend (t : Nat) (port : Nat) (s : State) : Answer :=
  s.upd t (port < 48) fun s d =>
    let tx := s.tx
    let x := d.port port
    let l := d.dl port
    let b := max (bitAfter d.clk) l.busy
    if !l.wait.isEmpty || d.ctrlClosed port b then d
    else match x.ctrl with
      | [] => d.sendNop tx port
      | (op, a, v) :: _ =>
        let holderOp := op == .write || op == .syncEpoch || op == .syncCycle || op == .start || op == .reset
        if x.stage == .listen || x.stage == .lock || (holderOp && !d.holds) then d.sendNop tx port
        else match op with
          | .echo => if l.echo.isSome then d.sendNop tx port else d.startCtrl tx port (d.ctrlFrame tx port op 0 0) b none
          | .syncEpoch => match d.syncEpoch port b with
            | some (b, phi, n) => d.startCtrl tx port (d.ctrlFrame tx port op 0 n) b (some phi)
            | none => d.sendNop tx port
          | .syncCycle => match d.syncCycle port b with
            | some (b, c, o) => d.startCtrl tx port (d.ctrlFrame tx port op (c % 256) o) b none
            | none => d.sendNop tx port
          | _ => d.startCtrl tx port (d.ctrlFrame tx port op a v) b none

/-- The operation of a CTRL frame that is withdrawn before it began; SYNC operations are computed anew. -/
def withdrawn : DownFrame → Option (CtrlOp × Nat × Nat)
  | .cmd _ => none
  | .ctrl f => if f.op = .nop then none else if f.op = .syncEpoch ∨ f.op = .syncCycle then some (f.op, 0, 0) else some (f.op, f.addr, f.data)

/-- The CTRL NOP of a block request goes before every frame that waits; CTRL operations among them wait again (R94). -/
def Dev.sendSafetyNop (d : Dev) (tx : Tx) (p : Nat) : Dev :=
  let l := d.dl p
  let cmds := l.wait.filter fun w => match w.frame with
    | .cmd _ => true
    | .ctrl _ => false
  let d := d.setPort p { d.port p with ctrl := l.wait.filterMap (fun w => withdrawn w.frame) ++ (d.port p).ctrl }
  let d := (d.setDl p { l with wait := [], hold := false }).sendNop tx p
  d.setDl p { d.dl p with wait := (d.dl p).wait ++ cmds }

/-- The hardware fallback generator sends its CMD1 with s1 = BLK for target cycle k + d (R248, R308). -/
def execFallbackGeneratorFrame (t : Nat) (port : Nat) (s : State) : Answer :=
  s.upd t (port < 48) fun s d =>
    let x := d.port port
    let target := d.cyc.k + d.depth
    match d.cyc.fallback with
    | some g =>
      if !x.commands || target < g.first || d.clk < d.cyc.tk + ticksOfNs 1500 || x.sent.any (fun f => f.1 == target) then d
      else
        let f : CmdFrame := ⟨s.tx.sb, g.h, g.epoch % 64, false, target % 256, .blk, 0, none⟩
        (d.setPort port { x with sent := ((target, f) :: x.sent).take 8 }).sendFrame s.tx port (.cmd f)
    | none => d

/-! ## Uplink -/

/-- An epoch is higher than another (R112). -/
def epochHigher (e a : Nat) : Bool :=
  let x := (e + 64 - a) % 64
  1 ≤ x && x ≤ 31

/-- A bad frame (R122, R123); `expected` when it stands in the place of an expected data frame. -/
def Dev.badFrame (d : Dev) (p : Nat) (expected : Bool) : Dev :=
  let x := d.port p
  let b := x.bucket + 64
  let d := d.setPort p { x with bucket := min 65535 b, bad := x.bad + 1, badRun := if expected then x.badRun + 1 else x.badRun,
                                goodRun := if expected then 0 else x.goodRun, alignN := if expected then 0 else x.alignN }
  let d := if d.pn P.link_err_limit ≤ b then d.retirePort p else d
  if expected && decide (8 ≤ x.badRun + 1) then d.portDown p else d

/-- The events and criteria of a status item that came at epoch `n` (R128, Table 03-4). -/
def Dev.statusItem (d : Dev) (p idx val n : Nat) : Dev :=
  let x := d.port p
  let old := x.items.get 0 idx
  let seen := (x.items.find idx).isSome
  let inc := if seen then (val + 256 - old) % 256 else 0
  let d := d.setPort p { x with items := x.items.set idx val, itemAt := x.itemAt.set idx n,
                                lateSeen := if idx = 6 ∨ idx = 7 then x.lateSeen + BitVec.ofNat 32 inc else x.lateSeen }
  let own := if d.letterB then 4 else 3
  if idx = 0 then
    let d := if bitN val 3 then d.raise Ev.LINK_MISMATCH (d.cellEv p) else d
    if bitN val 4 then d.raise Ev.LINK_DUAL_HOLDER (d.cellEv p) else d
  else if idx = 2 then
    let d := if val ≠ 0 ∧ old = 0 then d.raise Ev.LINK_CH_HEALTH (d.cellEv p) else d
    let d := if val = 0 ∧ (d.cell p).health then d.agree p (.predictive false) else d
    d.setPort p { d.port p with healthSince := if val = 0 then none else if x.healthSince.isSome then x.healthSince else some d.clk }
  else if idx = own then (List.range inc).foldl (fun d _ => d.badFrame p false) d
  else if idx = 6 then
    if 0 < inc then d.raiseLim Ev.LINK_FALLBACK p (1000 * d.tModTicks) (d.cellEv p) else d
  else if idx = 7 then (if 0 < inc then d.raise Ev.LINK_LATE (d.cellEv p) else d)
  else d

/-- Retirement ends: BYPASSED is reported (R78), for a cell that was BYPASSED already before the first fire frame too. -/
def Dev.retireDone (d : Dev) (p : Nat) : Dev :=
  let c := d.cell p
  if c.retiring.isSome then
    ({ d.setCell p { c with retiring := none, fired := none, lost := false } with
        par := { d.par with retCells := maskOf 48 fun i => i == p || bitN d.par.retCells i } }).raise Ev.MOD_CELL_RETIRED (d.cellEv p)
  else d

/-- The cell-head state of a data frame (Table 03-9). FAULT_BLOCK and BYPASSED make the cell fail in every frame that reports
them (R75); the events carry the last item 1 received (DESIGN CHOICE, log entry 109). BOOT ends RUN and a retrain (R107,
R124), and the counters of a restarted cell head begin at 0 (R121). -/
def Dev.headState (d : Dev) (p : Nat) (st : Nat) : Dev :=
  let x := d.port p
  let arg := d.cellEv p + (x.items.get 0 1) * 2 ^ 16
  let d := d.setPort p { x with head := st }
  let d := if st = 4 ∧ x.head ≠ 4 then d.raise Ev.LINK_CH_FAULT arg
    else if st = 5 ∧ x.head ≠ 5 then d.raise Ev.LINK_CH_BYPASSED arg
    else d
  if st = 1 then
    let d := if x.head = 1 then d else d.setPort p { d.port p with items := [], itemAt := [], healthSince := none }
    if x.retired then d
    else if x.stage == .run then
      (((d.setPort p { d.port p with live := true, lastArr := none }).raise Ev.LINK_DOWN (d.cellEv p)).enterStage p .lock).retrainFail p
    else if x.retrain.isSome then (d.setPort p { d.port p with retrain := none, boots := false }).enterStage p .lock
    else d
  else if st = 4 then d.cellFail p
  else if st = 5 then (d.cellFail p).retireDone p
  else d

/-- The joining device has seen a powered cell head in BOOT (R322). -/
def Dev.sawBoot (d : Dev) (st : Nat) : Dev :=
  if st = 1 ∧ d.twin.role = .joining ∧ d.twin.bootAt = none then { d with twin := { d.twin with bootAt := some d.clk } } else d

/-- The delay tracking of R104 at an arrival that lies `dev` ps after the expected one: one arrival per µs and a time constant
of 1 ms move L by a thousandth of its deviation. On the holder's own downlink that is `dev` less what φ lags behind t_down;
a standby sees its uplink alone, half of L (DEDUCED, log entry 114). `jump` is the move since the last arrival. -/
def Dev.track (d : Dev) (p : Nat) (dev jump : Int) : Dev :=
  let x := d.port p
  let l := if d.holds then dev - (((d.dl p).phi : Int) * 250 + x.tDown - x.aim) else 2 * dev
  let d := (d.setPort p { x with loop := x.loop + l }).checkDelays p
  if decide (2000 < jump.natAbs) then
    (d.setPort p { d.port p with mustAlign := true, realign := some 16, stepped := true }).raise Ev.LINK_DELAY_STEP (d.cellEv p)
  else d

/-- The demotion evidence of R309: two consecutive data frames of one cell report a higher epoch. -/
def Dev.epochSeen (d : Dev) (p e : Nat) : Dev :=
  let x := d.port p
  if d.twin.role == .holder && x.stage == .run && e != 0 && epochHigher e (d.twin.epoch % 64) then
    let n := x.higher + 1
    let d := d.setPort p { x with higher := n }
    if 2 ≤ n ∧ d.twin.demote = none then { d with twin := { d.twin with demote := some (0, e) } } else d
  else d.setPort p { x with higher := 0 }

/-- The number of the cell-head epoch of a data frame whose marker arrived at `arr` (R132). -/
def Dev.epochOf (d : Dev) (p arr : Nat) : Nat :=
  let x := d.port p
  (nearest (d.ctPs arr - d.tUp p - x.ttx) 1000000 / 1000000).toNat

/-- Control time has not passed `ns`. -/
def Dev.ctBy (d : Dev) (ns : Nat) : Bool := decide (d.ctNow * 16 ≤ (ns : Int) * 10 * 2 ^ 32)

/-- The block of epoch n stored for release and for the twin's repair requests; a frame that comes after n + 3.4 µs is absent
(R135). -/
def Dev.storeBlock (d : Dev) (p n : Nat) (d0 d1 : BitVec 50) : Dev :=
  if !d.ctBy (n * 1000 + 3400) then d
  else
  let b := d.meas.blocks.get {} p
  { d with meas := { d.meas with blocks := d.meas.blocks.set p { b with own := ((n, d0, d1) :: b.own.filter (·.1 != n)).take 8 } } }

/-- The first valid frame of LISTEN, or of a LOCK that is entered without one: the 100 µs of LOCK run from it (Table 03-5). -/
def Dev.heardFrame (d : Dev) (p : Nat) : Dev :=
  let x := d.port p
  if (x.stage == .listen || x.stage == .lock) && !x.heard then d.setPort p { x with heard := true, began := d.clk } else d

/-- The deviation of an arrival from a whole number of µs after the last one, in 0.25 ns (R104, R122). -/
def CellPort.moved (x : CellPort) (arr : Nat) : Option Int :=
  x.lastArr.map fun a => ((arr : Int) - a) - nearest ((arr : Int) - a) 4000

/-- A valid data frame, its marker at own time `arr` in units of 0.25 ns (R104, R122, R128). In SIMCELL it shows a live cell
head (R481). In LOCK an arrival is spaced 250 bit periods within ±8 ns of R122, and EV_LINK_ALIGN_DIFF comes once per
second and port (DESIGN CHOICE, log entry 110). The block counts in RUN only (R107). -/
def Dev.dataFrame (d : Dev) (port arr : Nat) (f : UpData) : Dev :=
  let d := d.heardFrame port
  let x := d.port port
  let spaced : Bool := match x.lastArr with
    | some a => decide (((arr : Int) - a - 4000).natAbs ≤ 32)
    | none => false
  let n := d.epochOf port arr
  let dev := d.ctPs arr - d.tUp port - x.ttx - (n : Int) * 1000000
  let near : Nat := if d.holds then 1000 else 4000
  let d := d.setPort port { x with lastArr := some arr, goodRun := if spaced then x.goodRun + 1 else 1,
                                   badRun := 0, bucket := x.bucket - 1, good := x.good + 1, accEpoch := f.epoch, committed := f.seq,
                                   goff := f.goff,
                                   alignN := if x.stage == .align && (x.synced == 2 || !d.holds) && decide (dev.natAbs ≤ near)
                                     then x.alignN + 1 else 0 }
  let d := if d.simCell port then
      (({ d with mode := { d.mode with simLive := maskOf 48 fun i => i == port || bitN d.mode.simLive i } }).raise Ev.MODE_SIM_LIVE
        (d.cellEv port)).blockCause 11
    else d
  let d := if x.stage == .align && !d.holds && decide (4000 < dev.natAbs) then d.raiseLim Ev.LINK_ALIGN_DIFF port (ticksOfS 1) (d.cellEv port) else d
  let d := if x.stage == .run then (d.track port dev (((x.moved arr).getD 0) * 250)).storeBlock port n f.d0 f.d1 else d
  (((d.statusItem port f.idx f.val n).sawBoot f.state).headState port f.state).epochSeen port f.epoch

/-- A RESP frame (R97): a register's value, the turnaround of the ECHO under way with the arrival `arr` of the data frame
whose epoch it counts to (DEDUCED, log entry 112), or a result code. -/
def Dev.respFrame (d : Dev) (port arr addr data : Nat) : Dev :=
  let d := d.heardFrame port
  let x := d.port port
  if addr = 0xF3 then
    match (d.dl port).echo with
    | some t0 =>
      let l : Int := (arr : Int) * 250 - (t0 : Int) * 50 - (data : Int) * 4000
      let d := d.setDl port { d.dl port with echo := none }
      if x.stage == .measure then d.setPort port { x with echoes := x.echoes ++ [l] } else d
    | none => d
  else if addr = 0xF4 ∨ addr = 0xF5 then
    d.setPort port { x with synced := if data = 0 then min 2 (x.synced + 1) else x.synced }
  else if addr < 0x20 then
    let differs := x.retrain.isSome && decide (addr < 2) && x.caps.get 0 addr != data
    d.setPort port { x with caps := x.caps.set addr data, read := if x.read.contains addr then x.read else addr :: x.read,
                            boots := x.boots || differs }
  else if x.stage == .config && (d.cfgWrites port).contains (addr, data) then
    d.setPort port { x with written := if x.written.contains addr then x.written else addr :: x.written }
  else d

/-- An uplink frame from the line bits after its marker (R88 to R95). An invalid one stands in the place of an expected data
frame when its marker came within ±8 ns of an epoch after the last data frame (R122). -/
def Dev.uplink (d : Dev) (port arr dataArr : Nat) (line : List Bool) : Dev :=
  let x := d.port port
  if x.stage == .off then d
  else
    let (f, rx) := receiveUp x.rx line
    let d := d.setPort port { x with rx := rx }
    match f with
    | some (.data f) => d.dataFrame port arr f
    | some (.resp addr data) => d.respFrame port dataArr addr data
    | none => d.badFrame port (match x.moved arr with
      | some m => decide (m.natAbs ≤ 32)
      | none => true)

/-- A valid uplink data frame arrives (R104, R122). -/
def execUplinkDataFrame (t : Nat) (port arr : Nat) (line : List Bool) (s : State) : Answer :=
  s.upd t (port < 48) fun _ d => d.uplink port arr arr line

/-- A RESP frame arrives (R97); `dataArr` is the arrival of the data frame whose epoch an ECHO result counts to. -/
def execUplinkRespFrame (t : Nat) (port arr dataArr : Nat) (line : List Bool) (s : State) : Answer :=
  s.upd t (port < 48) fun _ d => d.uplink port arr dataArr line

/-- A frame with a CRC or framing error arrives (R122). -/
def execUplinkFrameInvalid (t : Nat) (u : UpLine) (s : State) : Answer :=
  s.upd t (u.port < 48) fun _ d => d.uplink u.port u.arr u.arr u.line

/-- No data frame at its expected epoch (R122). -/
def execUplinkFrameMissing (t : Nat) (port : Nat) (s : State) : Answer :=
  s.upd t (port < 48) fun _ d =>
    if (d.port port).stage == .off || (d.port port).stage == .listen then d else d.badFrame port true

/-- The receiver of a port loses lock (R124). -/
def execPortReceiverLockLoss (t : Nat) (port : Nat) (s : State) : Answer :=
  s.upd t (port < 48) fun _ d =>
    if (d.port port).stage == .run then d.portDown port
    else if (d.port port).stage == .off || (d.port port).stage == .listen then d
    else d.enterStage port .lock

/-- One second after its retirement a port sends fill only (R126). -/
def execPortRetireFill (t : Nat) (port : Nat) (s : State) : Answer :=
  s.upd t (port < 48) fun _ d =>
    let x := d.port port
    if x.retired ∧ !x.fillOnly ∧ x.retiredAt + ticksOfS 1 ≤ d.clk then
      (d.setPort port { x with fillOnly := true }).emit (.fill port)
    else d

/-- One step of the phase shifter, at most once per 100 µs (R104). -/
def execPhaseTrackStep (t : Nat) (port : Nat) (s : State) : Answer :=
  s.upd t (port < 48) fun _ d =>
    let x := d.port port
    let l := d.dl port
    if x.stage != .run || !d.holds || (l.phiAt != 0 && d.clk < l.phiAt + ticksOfUs 100) then d
    else
      let e := x.aim - ((l.phi : Int) * 250 + d.tDown port)
      let step : Int := if 125 < e then 1 else if e < -125 then -1 else 0
      let phi := (l.phi : Int) + step
      if step = 0 then d
      else if phi < 0 ∨ 63 < phi then
        if x.mustAlign then d
        else (d.setPort port { x with mustAlign := true, realign := some 16, stepped := true }).raise Ev.LINK_DELAY_STEP (d.cellEv port)
      else d.setDl port { l with phi := phi.toNat, phiAt := d.clk }

/-- BYP has executed: SYNC_EPOCH and SYNC_CYCLE are repeated, and the chains of the port are reset (R104, R157). -/
def execPortRealign (t : Nat) (port : Nat) (s : State) : Answer :=
  s.upd t (port < 48) fun _ d =>
    let x := d.port port
    if x.mustAlign ∧ x.stage = .run then
      let d := d.setPort port { x with mustAlign := false, realign := some 16, stepped := false,
                                       ctrl := x.ctrl ++ (if d.holds then [(.syncEpoch, 0, 0), (.syncCycle, 0, 0)] else []) }
      (d.resetChain port).resetChain (48 + port)
    else d

/-- A health warning held for 10 s meets the predictive criterion (R76, R128), until the warning ends (DEDUCED, log
entry 117). -/
def execHealthWarnPersist (t : Nat) (port : Nat) (s : State) : Answer :=
  s.upd t (port < 48) fun _ d =>
    match (d.port port).healthSince with
    | some t0 => if t0 + ticksOfS 10 ≤ d.clk ∧ !(d.cell port).health ∧ !bitN d.mode.causes 0 then d.agree port (.predictive true) else d
    | none => d

/-- BYPASSED is not reported within 50 ms of the first fire command (R78). -/
def execBypassUnconfirmed (t : Nat) (port : Nat) (s : State) : Answer :=
  s.upd t (port < 48) fun _ d =>
    let c := d.cell port
    match c.fired with
    | some t0 =>
      if t0 + ticksOfMs 50 ≤ d.clk ∧ (d.port port).head ≠ 5 ∧ !c.lost then
        (d.setCell port { c with lost := true }).raise Ev.MOD_BYPASS_UNCONFIRMED (d.cellEv port)
      else d
    | none => d

/-! ## Host commands (R75, R79) -/

/-- The own port that an arm, segment index and port name. -/
def Dev.ownCell (d : Dev) (arm seg port : Nat) : Bool := decide (port < 48) && d.portArm port == arm && d.portSeg port == seg && d.cellAt port

/-- CELL_RETIRE: the cell fails (R75). -/
def execCellRetire (t : Nat) (c : CmdRef) (arm seg port : Nat) (s : State) : Answer :=
  s.upd t true fun _ d => d.runCmd c 0x0050 fun d =>
    if !d.ownCell arm seg port then (d, stRes Sc.RANGE) else (d.cellFail port, stRes Sc.DONE)

/-- CELL_RESTORE in DE-ENERGISED: a retired cell or port starts again (R45, R69, R72, R79, R126). -/
def execCellRestore (t : Nat) (c : CmdRef) (arm seg port : Nat) (s : State) : Answer :=
  s.upd t true fun _ d => d.runCmd c 0x0051 fun d =>
    if !d.ownCell arm seg port then (d, stRes Sc.RANGE)
    else if d.mode.conv ≠ .deEnergised then (d, stRes Sc.STATE)
    else
      let cap := f32ofRat (d.pn P.mod_cap_nom_uf) 1000000
      let d := d.setCell port { ({} : CellRec) with cap := cap }
      let d := { d with par := { d.par with retCells := maskOf 48 fun i => i != port && bitN d.par.retCells i
                                            retPorts := maskOf 48 fun i => i != port && bitN d.par.retPorts i
                                            dlyRef := (List.range 4).foldl (fun m j => m.erase (4 * port + j)) d.par.dlyRef } }
      let x := d.port port
      let d := if x.retired then
          (d.setPort port { x with retired := false, fillOnly := false, bucket := 0, failTimes := [], badRun := 0 }).enterStage port .listen
        else d
      (d, stRes Sc.DONE)

end Sys2Proof.Machine
end

