-- ==== Sys2Proof/Machine/Chains.lean ====
section
/-!
DEFINITION. Machine/Chains.lean: the release of input blocks to the chains, repair and forwarding between twins, bank
swaps, and the chains' host commands (R130 to R169).
-/
namespace Sys2Proof.Machine

open Sys2Proof

/-! ## Configuration (R151 to R153) -/

/-- The preset row of a chain: CV and CT 0 to 3, REF 4 to 11. -/
def Dev.chainPreset (d : Dev) (n : Nat) : Nat :=
  if n < 48 then d.pn P.meas_cv_preset else if n < 96 then d.pn P.meas_ct_preset else 4 + d.pni P.meas_ref_preset (n - 96)

/-- The slot parameter, 0 for the preset's own set. -/
def Dev.chainPslot (d : Dev) (n : Nat) : Nat :=
  if n < 48 then d.pn P.meas_cv_slot else if n < 96 then d.pn P.meas_ct_slot else d.pni P.meas_ref_slot (n - 96)

def Dev.chainTin (d : Dev) (n : Nat) : Nat :=
  if n < 96 then (if d.pv P.link_double_rate = 1 then 20 else 40) else if d.pvi P.meas_mclk_rate ((n - 96) / 4) = 1 then 20 else 40

/-- The slot that the configuration names for a chain. -/
def Dev.chainSlot (d : Dev) (n : Nat) : Nat :=
  let s := d.chainPslot n
  if s = 0 then (preset (d.chainPreset n)).slot else s

/-- The slot a chain works with: its active bank's, which a disabled chain keeps (R159), or the configured one where the
configuration has changed. -/
def Dev.activeSlot (d : Dev) (n : Nat) : Nat :=
  let c := d.chain n
  if c.cfg.pslot = d.chainPslot n ∧ c.cfg.preset = d.chainPreset n then c.slot else d.chainSlot n

def Dev.chainTau (d : Dev) (n : Nat) : Nat := tau256 (preset (d.chainPreset n)) (d.coefSet (d.activeSlot n))

/-- The phase delay that R153 sets. -/
def Dev.phaseDelay (d : Dev) (n : Nat) : Nat :=
  if n < 96 then
    if d.pv P.meas_cell_align = 1 then
      let own := d.chainTau n
      let other := d.chainTau (if n < 48 then n + 48 else n - 48)
      if own < other then (2 * (other - own) + 256) / 512 else 0
    else 0
  else
    let m := n - 96
    let a := d.pn P.meas_ref_align
    if bitN a m then
      -- in units of 1/10240 sample
      let v : Nat → Int := fun j => (d.chainTau (96 + j) : Int) * 40 + d.pvi P.meas_ref_skew_ns j * 256 * 40 / d.chainTin (96 + j)
      let top := (List.range 8).foldl (fun x j => if bitN a j then max x (v j) else x) (v m)
      ((2 * (top - v m) + 10240) / 20480).toNat
    else d.pni P.meas_ref_dph m

/-- The configuration a chain should have. -/
def Dev.chainCfg (d : Dev) (n : Nat) : ChainCfg :=
  ⟨d.chainPreset n, d.chainPslot n, d.chainTin n, d.phaseDelay n, if n < 96 then 0 else d.pvi P.meas_ref_skew_ns (n - 96)⟩

/-- A chain runs (R131); a REF chain with a permanently faulty stream stays stopped (R165), and so does a chain whose
coefficient slot has failed (R466). -/
def Dev.chainOn (d : Dev) (n : Nat) : Bool :=
  !d.flt.coefBad.contains (d.activeSlot n) &&
    (if n < 96 then bitN (d.pn P.link_port_enable) (n % 48) else bitN (d.pn P.meas_ref_enable) (n - 96) && !(d.chain n).perm)

/-- Conversion constants (R155). -/
def Dev.chainScale (d : Dev) (n : Nat) : F32 × F32 :=
  if n < 96 then
    let x := d.port (n % 48)
    let (fs, o) := if n < 48 then (x.caps.get 0 5, x.caps.get 0 6) else (x.caps.get 0 7, x.caps.get 0 8)
    (f32ofRat fs 10, f32ofRat (signedN 16 o) 100000)
  else (d.pfi P.meas_ref_fs (n - 96), d.pfi P.meas_ref_ofs (n - 96))

/-- The settings `want` take effect after the sample at index `i`: a synchronising reset with the new values. The banks keep
their slots unless the preset or the slot parameter changes. -/
def Dev.reconfigure (d : Dev) (n i : Nat) (want : ChainCfg) : Dev :=
  let c := d.chain n
  let p := preset want.preset
  let c' := c.reset i 0
  let slot := if want.pslot = 0 then p.slot else want.pslot
  let c' := if c.cfg.preset = want.preset ∧ c.cfg.pslot = want.pslot then c' else { c' with slotA := slot, slotB := slot }
  let set := d.coefSet c'.slot
  d.setChain n { c' with on := true, cfg := { want with skew := c.cfg.skew }, ninv := nInv p set, g := gainInv p set, ix := some i,
                         fwdIn := c.inNext.getD c.fwdIn, inNext := none, frzW := d.pn P.meas_frz_win, frzV := d.pn P.meas_frz_var }

/-- Disabling (R159): the entry keeps its last output with V cleared, a fade ends, a request is discarded. The command of a
discarded request completes as replaced: R159 gives no status (DESIGN CHOICE, log entry 124). -/
def Dev.chainOff (d : Dev) (n : Nat) : Dev :=
  let c := d.chain n
  let d := match c.swap with
    | some (_, _, r) => d.complete r 0x0061 (stRes Sc.REPLACED)
    | none => d
  let outs := match c.outs with
    | o :: r => { o with tag := o.tag - o.tag % 2 } :: r
    | [] => []
  d.setChain n { c with on := false, outs := outs, bankB := if c.fade.isSome then !c.bankB else c.bankB, fade := none, swap := none,
                        change := [], ix := none, faulty := false, faultAt := 0, entries := [], fwdIn := c.inNext.getD c.fwdIn, inNext := none }

/-- The settings without the skew, which changes without a reset. -/
def ChainCfg.structural (c : ChainCfg) : ChainCfg := { c with skew := 0 }

/-- The chains at the start of modulation cycle `k`: enables, changes of configuration and MEAS_SYNC are due at the first
output boundary from here on, and the modulator clocks run for the groups with an enabled chain (R156 to R159, R523); a changed skew alone moves the tags (Table 04-13). -/
def Dev.measBoundary (d : Dev) (k : Nat) : Dev :=
  let at_ := k * d.pn P.mod_t_mod_ns
  let due := d.meas.sync.filter fun x => decide (x.2 ≤ k)
  let runs := fun (g : Nat) => (List.range 4).any fun i => bitN (d.pn P.meas_ref_enable) (4 * g + i)
  let d := { d with meas := { d.meas with sync := d.meas.sync.filter fun x => decide (k < x.2), mclk := maskOf 2 runs } }
  (List.range 104).foldl (fun d n =>
    let c := d.chain n
    let d := if 96 ≤ n ∧ c.perm ∧ !bitN (d.pn P.meas_ref_enable) (n - 96) then d.setChain n { c with perm := false } else d
    let want := d.chainCfg n
    let c := d.chain n
    if d.chainOn n then
      let c := { c with cfg := { c.cfg with skew := want.skew } }
      let asked : Bool := decide (c.wanted.structural ≠ want.structural) || (c.on && due.any (fun x => bitN x.1 n))
        || (!c.on && c.change.isEmpty)
      d.setChain n (if asked then { c with change := c.change ++ [(at_, want)] } else c)
    else if c.on || !c.change.isEmpty then d.chainOff n
    else d) d

/-- The input of a REF chain is to be the forwarded stream, or its own RMD input, from the first output boundary at or after
control time `at_`: a change of channel (R141, R156). -/
def Dev.takeInput (d : Dev) (m : Nat) (fwd : Bool) (at_ : Nat) : Dev :=
  let n := 96 + m
  let c := d.chain n
  if c.inNext.getD c.fwdIn == fwd then d
  else if c.on || !c.change.isEmpty then d.setChain n { c with inNext := some fwd, change := c.change ++ [(at_, c.wanted)] }
  else d.setChain n { c with fwdIn := fwd, inNext := none }

/-! ## Releasing a block -/

/-- The events of a chain, with the chain number (Table 04-11). -/
def Dev.chainEvents (d : Dev) (n : Nat) (ev : List Nat) : Dev :=
  ev.foldl (fun d e => if e = Ev.MEAS_SATURATED then d.raiseLim e n (ticksOfS 1) n else d.raise e n) d

/-- A chain's environment while a block is released. -/
def Dev.chainEnv (d : Dev) (n rel : Nat) : ChainEnv :=
  let c := d.chain n
  let (fs, o) := d.chainScale n
  ⟨preset c.cfg.preset, d.coefSet c.slot, if c.fade.isSome then d.coefSet c.inSlot else d.coefSet c.slot,
    d.pn P.meas_ovr_pct, d.pn P.meas_frz_win, d.pn P.meas_frz_var, fs, o, rel, decide (n < 96) || d.tim.ctValid⟩

/-- A CV output of port `p` waits for CAP4 (R45). -/
def Dev.capSample (d : Dev) (p : Nat) : Dev :=
  if !bitN d.mode.fnEnable 2 || !d.cyc.run then d
  else match (d.chain p).outs with
    | s :: _ => d.setCell p { d.cell p with capQ := (d.cell p).capQ ++ [⟨s.t, s.v, s.tag % 64 == 1, s.rel⟩] }
    | [] => d

/-- A fade has ended at control time `at_`, ns: the phase delays that the incoming set changes are due (R154). -/
def Dev.delaysDue (d : Dev) (at_ : Nat) : Dev :=
  (List.range 104).foldl (fun (d : Dev) n =>
    let c := d.chain n
    if c.on && c.wanted.delay != d.phaseDelay n then d.setChain n { c with change := c.change ++ [(at_, { c.wanted with delay := d.phaseDelay n })] } else d) d

/-- A requested set enters the inactive bank at the boundary where the chain stands, and a fade or a direct swap starts
(R146, R147). The windows of the outputs until FIR2's line has been renewed reach back into the old set's values. -/
def Dev.startSwap (d : Dev) (n slot : Nat) (cmd : CmdRef) : Dev :=
  let c := d.chain n
  let p := preset c.cfg.preset
  let old := d.coefSet c.slot
  let new := d.coefSet slot
  let left := ceilDiv (new.n2 - 1) p.m2
  let tail : Option (Nat × Nat) := match c.tail with
    | none => if left = 0 then none else some (lIn p old, left)
    | some (l, m) => some (max l (lIn p old), max m left)
  let c := { c with swap := none, slotA := if c.bankB then slot else c.slotA, slotB := if c.bankB then c.slotB else slot, d2i := c.d2a,
                    tail := tail }
  let f := d.pn P.meas_fade_len
  let c := if f = 0 then { c with bankB := !c.bankB, ninv := nInv p new, g := gainInv p new } else { c with fade := some (0, f) }
  (d.setChain n c).complete cmd 0x0061 (stRes Sc.DONE)

/-- The boundary where the chain stands is at or after the request's c_start, and no fade runs (R146, R148). -/
def Dev.swapDue (d : Dev) (n : Nat) : Option (Nat × CmdRef) :=
  let c := d.chain n
  match c.swap, c.boundary (preset c.cfg.preset) with
  | some (slot, start, cmd), some b =>
    if c.on && c.fade.isNone && decide (start * d.pn P.mod_t_mod_ns ≤ b * c.cfg.tIn) then some (slot, cmd) else none
  | _, _ => none

/-- The change that is due at output boundary `i` (R156): the last of those whose instant has come. -/
def Dev.changeDue (d : Dev) (n i : Nat) : Option ChainCfg :=
  let c := d.chain n
  let cfg := if c.on then c.cfg else c.wanted
  let now := i * cfg.tIn
  if i % mTot (preset cfg.preset) = 0 then ((c.change.filter fun x => decide (x.1 ≤ now)).getLast?.map (·.2)) else none

/-- A running chain takes one sample; then a change that is due takes place. A request starts by itself before the next value
enters FIR2. -/
def Dev.runSample (d : Dev) (n rel i : Nat) (bit : Bool) : Dev :=
  let p := preset (d.chain n).cfg.preset
  let d := match d.swapDue n with
    | some (slot, cmd) => if i % (p.ms * p.m1) = 0 then d.startSwap n slot cmd else d
    | none => d
  let (c, ev) := (d.chain n).sample (d.chainEnv n rel) i bit
  let new := c.nOut != (d.chain n).nOut
  let d := (d.setChain n c).chainEvents n ev
  let d := if n < 48 ∧ new then d.capSample n else d
  if ev.contains Ev.MEAS_BANK_DONE then d.delaysDue (i * c.cfg.tIn) else d

/-- The change due after the sample at `i`, with what it leaves of the list. -/
def Dev.runChange (d : Dev) (n i : Nat) (want : ChainCfg) : Dev :=
  let c := d.chain n
  let now := i * (if c.on then c.cfg.tIn else want.tIn)
  let d := d.reconfigure n i want
  d.setChain n { d.chain n with change := (d.chain n).change.filter fun x => decide (now < x.1) }

/-- The samples of a block through a chain, from its own input `own` or the forwarded stream. A chain that is being enabled
takes none before its first output boundary; where the input rate changes, the rest of the block, which came at the old rate,
is left (DEDUCED, log entry 126). -/
def Dev.runSamples (d : Dev) (n rel : Nat) (own fwd : BitVec 50) : Nat → Nat → Nat → Dev
  | 0, _, _ => d
  | k + 1, i, j =>
    let c := d.chain n
    let d := if c.on then d.runSample n rel i (if c.fwdIn then fwd.getLsbD j else own.getLsbD j) else d
    match d.changeDue n i with
    | some want =>
      let d := d.runChange n i want
      if !c.on || want.tIn = c.cfg.tIn then d.runSamples n rel own fwd k (i + 1) (j + 1) else d
    | none => d.runSamples n rel own fwd k (i + 1) (j + 1)

/-- The blocks of epoch `epoch` at the own input of chain `n` and, for a REF chain, of the forwarded stream: one that is missing
is substituted by the previous block of its stream (R136). A chain that is off works by the settings it is to take. -/
def Dev.runBlock (d : Dev) (n epoch rel : Nat) (own fwd : Option (BitVec 50)) : Dev :=
  let c := d.chain n
  let b := own.getD c.prev
  let f := fwd.getD c.prevFwd
  let cfg := if c.on then c.cfg else c.wanted
  let len := 1000 / max cfg.tIn 1
  let i0 := (epoch - 1) * len
  let missing := if c.fwdIn then fwd.isNone else own.isNone
  let c' := { c with prev := b, prevFwd := f,
                     substs := if missing && c.on then (i0, i0 + len - 1) :: c.substs else c.substs }
  let d := d.setChain n c'
  if !c.on && c.change.isEmpty then d else d.runSamples n rel b f len i0 0

/-- The edge branch of port `p` over a block (R160, R161). -/
def Dev.runEdges (d : Dev) (p epoch : Nat) (bits : BitVec 50) : Dev :=
  let c := d.chain (48 + p)
  let cv := d.chain p
  if !c.on || c.perm then d
  else
    let tIn := c.cfg.tIn
    let me := if tIn = 20 then 8 else 4
    let x := d.port p
    let cal : Int := max 1 (x.caps.get 0 7 : Nat)
    let cube : Int := (me ^ 3 : Nat)
    let v := (cv.oks.head?.map (·.v)).getD f0
    let theta := f32RatRound v (10 * cube) (2 * cal)
    let oe := (2 * (signedN 16 (x.caps.get 0 8) * cube) + 100000) / 200000
    let stale : Bool := match cv.oks.head? with
      | some o => decide (o.rel + 20 < 2 * epoch + 8)
      | none => true
    let e : EdgeEnv := ⟨me, tIn, theta, oe, decide (theta * 10 < cube) || stale, 2 * epoch + 8⟩
    let len := 1000 / tIn
    let i0 := (epoch - 1) * len
    let c := (List.range len).foldl (fun c j => c.edge e (i0 + j) (bits.getLsbD j)) c
    d.setChain (48 + p) { c with susp := if e.susp then ((epoch - 1) * 1000, epoch * 1000) :: c.susp.take 63 else c.susp.take 64 }

/-- The bits of a port for an epoch: received, or the twin's copy. -/
def PortBlocks.find (b : PortBlocks) (n : Nat) : Option (BitVec 50 × BitVec 50) :=
  match b.own.find? (·.1 == n) with
  | some x => some x.2
  | none => (b.repaired.find? (·.1 == n)).map (·.2)

/-- The input block of epoch `epoch` of every port is released to its CV and CT chains (R133, R136). The streams of the
modelled cells of SIMCELL stand among the own blocks (R481). -/
def Dev.releaseCells (d : Dev) (epoch : Nat) : Dev :=
  let rel := 2 * epoch + 8
  let d := (List.range 48).foldl (fun d p =>
    let idle := fun (c : Chain) => !c.on && c.change.isEmpty
    if idle (d.chain p) && idle (d.chain (48 + p)) then d
    else
      let b := (d.meas.blocks.get {} p).find epoch
      let subst := b.isNone
      let d := if subst then d.raiseLim Ev.MEAS_FRAME_SUBST p (ticksOfMs 1) p else d
      let d := d.runBlock p epoch rel (b.map (·.1)) none
      let d := d.runBlock (48 + p) epoch rel (b.map (·.2)) none
      d.runEdges p epoch (d.chain (48 + p)).prev) d
  { d with meas := { d.meas with cellBlocks := d.meas.cellBlocks + 1 } }

/-- A REF chain follows the holder's stream (R141). -/
def Dev.follows (d : Dev) (m : Nat) : Bool :=
  d.duplex && bitN (d.pn P.meas_ref_follow) m && d.twin.role == .standby && !(d.chain (96 + m)).own

/-- The count of missing and received forwarded blocks, and the input that the next block comes from (R141). -/
def Dev.followCount (d : Dev) (m : Nat) (got : Bool) : Dev :=
  let n := 96 + m
  let c := d.chain n
  if got then
    let r := c.recvRun + 1
    d.setChain n { c with recvRun := r, missRun := 0, own := c.own && decide (r < 1000) }
  else
    let r := c.missRun + 1
    let d := d.setChain n { c with recvRun := 0, missRun := r, own := c.own || decide (8 ≤ r) }
    if !c.own ∧ 8 ≤ r then d.raise Ev.MEAS_FOLLOW_LOST n else d

/-- The REF block of epoch n, `rmd` its bits at the own inputs RMD0 to RMD7; the holder forwards the followed streams (R133, R141,
R288). -/
def Dev.releaseRefs (d : Dev) (epoch : Nat) (rmd : List (BitVec 50)) : Dev :=
  let rel := 2 * epoch + 1
  let sent : Tab (BitVec 50) := ((List.range 8).filter fun m => bitN (d.pn P.meas_ref_follow) m).map fun m => (m, rmd.getD m 0)
  let d := if d.duplex && d.twin.role == .holder && !sent.isEmpty then d.give 2 (.refFwd epoch sent) else d
  let d := (List.range 8).foldl (fun d m =>
    let bits := rmd.getD m 0
    if d.duplex && bitN (d.pn P.meas_ref_follow) m && d.twin.role == .standby then
      let f := ((d.meas.fwd.get [] m).find? (·.1 == epoch)).map (·.2)
      let d := d.takeInput m (d.follows m) ((epoch - 1) * 1000)
      let c := d.chain (96 + m)
      let d := if f.isNone && c.on && c.fwdIn then d.raiseLim Ev.MEAS_FRAME_SUBST (96 + m) (ticksOfMs 1) (96 + m) else d
      (d.runBlock (96 + m) epoch rel (some bits) f).followCount m f.isSome
    else
      (d.takeInput m false ((epoch - 1) * 1000)).runBlock (96 + m) epoch rel (some bits) none) d
  { d with meas := { d.meas with refBlocks := d.meas.refBlocks + 1 } }

/-- A forwarded block from the holder (R141). -/
def execRefFwdReceive (t : Nat) (lane epoch m : Nat) (bits : BitVec 50) (s : State) : Answer :=
  s.upd t ((lane == 4 || lane == 5) && m < 8) fun _ d =>
    let d := d.goodBlocks lane 1
    { d with meas := { d.meas with fwd := d.meas.fwd.set m (((epoch, bits) :: d.meas.fwd.get [] m).take 8) } }

/-! ## Repair (R135, R288, R289) -/

/-- The full epoch whose low 14 bits are `low`, nearest to the present one (R289). -/
def Dev.epochNear (d : Dev) (low : Nat) : Nat :=
  let now := (d.ctNow * 16 / (2 ^ 32 * 10000)).toNat
  let a := now - (now % 16384) + low % 16384
  if a + 8192 < now then a + 16384 else if now + 8192 < a ∧ 16384 ≤ a then a - 16384 else a

/-- At n + 3.4 µs: the ports without a valid frame are named to the twin (R135). -/
def execRepairRequestSend (t : Nat) (epoch : Nat) (s : State) : Answer :=
  s.upd t true fun _ d =>
    let mask := maskOf 48 fun p => (d.chain p).on && !d.simCell p && ((d.meas.blocks.get {} p).own.find? (·.1 == epoch)).isNone
    if mask = 0 || !d.duplex then d
    else
      let d := { d with meas := { d.meas with requested := ((epoch, mask) :: d.meas.requested).take 8 } }
      d.give 2 (.repairReq (epoch % 16384) mask)

/-- The twin asks for ports of an epoch: up to two data blocks for the lowest ports held, and an absence block for those
not held (R288, R289). -/
def execRepairReqReceive (t : Nat) (lane low mask : Nat) (s : State) : Answer :=
  s.upd t ((lane == 4 || lane == 5) && low < 16384) fun _ d =>
    let d := d.goodBlocks lane 1
    let n := d.epochNear low
    let held := fun p => ((d.meas.blocks.get {} p).own.find? (·.1 == n)).map (·.2)
    let asked := (List.range 48).filter (bitN mask)
    let bits := asked.filterMap fun p => (held p).map fun b => (⟨p, b.1, b.2⟩ : PortBits)
    let per := if d.pv P.link_double_rate = 1 then 4 else 9
    let gone := maskOf 48 fun p => bitN mask p && (held p).isNone
    let d := if bits.isEmpty then d else d.give 2 (.repairData low (.data (bits.take per)))
    let d := if bits.length ≤ per then d else d.give 2 (.repairData low (.data ((bits.drop per).take per)))
    if gone = 0 then d else d.give 2 (.repairData low (.absent gone))

/-- The twin's copies, or its absence notice, for the release of epoch n: a copy that comes after n + 3.9 µs is not released
(R135). -/
def execRepairDataReceive (t : Nat) (lane low : Nat) (r : RepairData) (s : State) : Answer :=
  s.upd t ((lane == 4 || lane == 5) && low < 16384) fun _ d =>
    let d := d.goodBlocks lane 1
    let n := d.epochNear low
    let set := fun (d : Dev) (p : Nat) (b : PortBlocks) => { d with meas := { d.meas with blocks := d.meas.blocks.set p b } }
    match r with
    | .data bs => bs.foldl (fun d b =>
        let x := d.meas.blocks.get {} b.port
        if b.port < 48 && d.ctBy (n * 1000 + 3900) then set d b.port { x with repaired := ((n, b.d0, b.d1) :: x.repaired).take 8 } else d) d
    | .absent m => (List.range 48).foldl (fun d p =>
        let x := d.meas.blocks.get {} p
        if bitN m p then set d p { x with absent := (n :: x.absent).take 8 } else d) d

/-- At n + 3.9 µs: the ports that no answer names are substituted at the release (R135). -/
def execRepairDeadline (t : Nat) (epoch : Nat) (s : State) : Answer :=
  s.upd t true fun _ d =>
    match d.meas.requested.find? (·.1 == epoch) with
    | none => d
    | some (_, mask) =>
      let d := { d with meas := { d.meas with requested := d.meas.requested.filter (·.1 != epoch) } }
      (List.range 48).foldl (fun d p =>
        let b := d.meas.blocks.get {} p
        if bitN mask p && (b.find epoch).isNone && !b.absent.contains epoch then d.raise Ev.MEAS_REPAIR_FAIL p else d) d

/-! ## Streams permanently faulty (R165) -/

/-- A stream is declared permanently faulty. -/
def execStreamPerm (t : Nat) (ch : Nat) (s : State) : Answer :=
  s.upd t (ch < 104) fun _ d =>
    let c := d.chain ch
    let now := (d.ctNow * 16 / (2 ^ 32 * 10)).toNat       -- ns
    let long := c.faulty && decide (c.faultAt + d.pn P.meas_perm_ms * 1000000 ≤ now)
    if c.perm || !c.on || !(long || decide (8 ≤ c.entries.length)) then d
    else
      let d := (d.setChain ch { c with perm := true }).raise Ev.MEAS_STREAM_PERM ch
      if ch < 48 then d.cellFail ch
      else if ch < 96 then d
      else
        let d := d.chainOff ch
        d.setChain ch { d.chain ch with perm := true }

/-! ## Bank swaps (R146 to R149) -/

/-- The chain has reached the first output boundary at or after c_start: a fade or a direct swap starts (R146, R147). -/
def execBankSwapStart (t : Nat) (ch : Nat) (s : State) : Answer :=
  s.upd t (ch < 104) fun _ d =>
    match d.swapDue ch with
    | some (slot, cmd) => d.startSwap ch slot cmd
    | none => d

/-- Twins must swap on the same output (R149). -/
def Dev.twinChain (d : Dev) (ch : Nat) : Bool := d.duplex && (decide (ch < 96) || bitN (d.pn P.meas_ref_follow) (ch - 96))

/-- c_start is admitted for a chain. -/
def Dev.startOk (d : Dev) (ch start : Nat) : Bool := !d.twinChain ch || decide (d.cyc.k + 2 ≤ start)

/-- MEAS_BANK_SWAP (R146, R148, R149). A request for one of the reserved slots 4 to 7, which R146 does not list, is refused
with RANGE (DESIGN CHOICE, log entry 123). -/
def execMeasBankSwap (t : Nat) (c : CmdRef) (ch slot start : Nat) (s : State) : Answer :=
  s.upd t true fun _ d => d.startCmd c 0x0061 fun d =>
    let x := d.chain ch
    if 104 ≤ ch ∨ 256 ≤ slot ∨ (4 ≤ slot ∧ slot < 8) ∨ 2 ^ 48 ≤ start then (d, some (stRes Sc.RANGE))
    else if !d.startOk ch start || setRefused (preset x.cfg.preset) (d.coefSet slot) then (d, some (stRes Sc.RANGE))
    else if slot = x.slot ∧ x.fade = none ∧ x.swap = none then (d, some (stRes Sc.DONE))
    else
      let d := match x.swap with
        | some (_, _, r) => d.complete r 0x0061 (stRes Sc.REPLACED)
        | none => d
      (d.setChain ch { d.chain ch with swap := some (slot, start, c) }, none)

/-- MEAS_SYNC: a synchronising reset of the chains of a mask at c_start (R157). -/
def execMeasSync (t : Nat) (c : CmdRef) (mask start : Nat) (s : State) : Answer :=
  s.upd t true fun _ d => d.runCmd c 0x0062 fun d =>
    if 2 ^ 104 ≤ mask ∨ 2 ^ 48 ≤ start ∨ (List.range 104).any (fun n => bitN mask n && !d.startOk n start) then (d, stRes Sc.RANGE)
    else ({ d with meas := { d.meas with sync := d.meas.sync ++ [(mask, start)] } }, stRes Sc.DONE)

/-- MEAS_COEF_LOAD (R145). The banks of a disabled chain, and the slot of a request that waits, are used as well. -/
def execMeasCoefLoad (t : Nat) (c : CmdRef) (slot : Nat) (words : List Word) (s : State) : Answer :=
  s.upd t true fun _ d => d.runCmd c 0x0060 fun d =>
    let h := (words.getD 0 0).toNat
    let used := (List.range 104).any fun n => (d.chain n).holds slot || d.activeSlot n == slot
    if slot < 16 ∨ 256 ≤ slot ∨ 255 < fieldN h 0 9 ∨ 255 < fieldN h 9 9 ∨ 510 < fieldN h 0 9 + fieldN h 9 9 then (d, stRes Sc.RANGE)
    else if words.length ≠ 512 then (d, stRes Sc.BAD_ARG)
    else if used then (d, stRes Sc.BUSY)
    else ({ d with meas := { d.meas with coef := d.meas.coef.set slot words } }, stRes Sc.DONE)

/-! ## The sample table (R167) -/

/-- A number as `n` bytes, the lowest first. -/
def leBytes (n v : Nat) : List (BitVec 8) := (List.range n).map fun j => BitVec.ofNat 8 (v / 2 ^ (8 * j))

/-- The tick offset and the cycle number of an instant in TBASE ticks. -/
def Dev.tickCycle (d : Dev) (t : Int) : Nat × Nat :=
  let m : Int := max 1 ((d.pn P.mod_t_mod_ns * 5 / 8 : Nat) : Int)
  ((t % m).toNat % 2 ^ 16, (t / m).toNat % 2 ^ 48)

/-- A sample entry (Table 04-8), its tag byte as Table 04-9. -/
def Dev.sampleBytes (d : Dev) (s : Sample) : List (BitVec 8) :=
  let (tick, cycle) := d.tickCycle s.t
  leBytes 4 s.v.toNat ++ leBytes 3 (wrapN 24 s.raw) ++ leBytes 1 s.tag ++ leBytes 2 tick ++ leBytes 6 cycle

/-- An edge record (Table 04-10). -/
def Dev.edgeBytes (d : Dev) (e : EdgeRec) : List (BitVec 8) :=
  let (tick, cycle) := d.tickCycle e.t
  leBytes 4 (bit01 e.entry + 2 * bit01 e.neg + 4 * bit01 e.s) ++ leBytes 4 (e.theta % 2 ^ 16) ++ leBytes 2 tick ++ leBytes 6 cycle

def zeros16 : List (BitVec 8) := List.replicate 16 0

/-- The entry of a chain: its newest output. -/
def Dev.entryBytes (d : Dev) (n : Nat) : List (BitVec 8) := ((d.chain n).outs.head?.map d.sampleBytes).getD zeros16

/-- The aligned 16-byte unit `u` of the table, offset 16 × u (Table 04-7). Record k of a ring stands at position k mod 4, and
`edgeN` records have been written. -/
def Dev.tableUnit (d : Dev) (u : Nat) : List (BitVec 8) :=
  let p := u / 8
  let ct := d.chain (48 + p)
  if u < 0x180 then
    match u % 8 with
    | 0 => d.entryBytes p
    | 1 => d.entryBytes (48 + p)
    | 6 => leBytes 4 ct.edgeN.toNat ++ List.replicate 12 0
    | 7 => zeros16
    | j =>
      -- the newest record stands at position (edgeN − 1) mod 4
      let age := (ct.edgeN.toNat + 3 - (j - 2)) % 4
      (ct.ring[age]?.map d.edgeBytes).getD zeros16
  else if u < 0x188 then d.entryBytes (96 + (u - 0x180))
  else if u = 0x188 then leBytes 4 d.meas.cellBlocks.toNat ++ leBytes 4 d.meas.refBlocks.toNat ++ List.replicate 8 0
  else zeros16

end Sys2Proof.Machine
end

