-- ==== Sys2Proof/Machine/CycleOps.lean ====
section
/-!
DEFINITION. Machine/CycleOps.lean: the cycle sequencer's templates, pools and deques (R231 to R244), the reeds and their
capacity (R252, R253, R256 to R258), the segment fault (R248), and the recorder's source periods that the capacity counts
(R356, R360). Of the reed's local memory (Table 07-1) the parameter page is the active set `par.active`, the cell records are
`cyc.cells`, which every reserve reed shadows (R255), and the slot window is `cyc.slots`; the code is the signed image's.
-/
namespace Sys2Proof.Machine

open Sys2Proof

/-! ## Segment fault (R248) -/

/-- The device declares a segment fault; it stays in force until a restart (R250). Alone, the device hands its ports to
the fallback generator and requests FAULT_BLOCKED. -/
def Dev.segmentFault (d : Dev) : Dev :=
  if d.cyc.segFault then d
  else
    let d := { d with cyc := { d.cyc with segFault := true } }.raise Ev.CYCLE_SEGMENT_FAULT
    if d.twin.role == .solo || !d.duplex then
      ({ d with cyc := { d.cyc with fallback := some ⟨true, d.twin.epoch, d.cyc.k + d.depth⟩ } }).blockCause 6
    else d

/-! ## Recorder sources (Table 11-1) -/

/-- Control period, ns (R190). -/
def Dev.tCtlNs (d : Dev) : Nat := d.pn P.ctl_n_ctl * d.pn P.mod_t_mod_ns

/-- The length in force of a host list: a length of 0 acts at the next boundary (R184). -/
def Dev.sarLen (d : Dev) (n : Nat) : Nat :=
  let len := d.pni P.sar_seq_len n
  if len = 0 then (d.sar.seq.get {} n).len else len

/-- The slots of the host's list of a sequencer (R173, R174, R187). -/
def Dev.sarHostSlots (d : Dev) (n : Nat) : List (Nat × Nat) :=
  let len := d.sarLen n
  let cut := n == 2 && (d.sar.seq.get {} 3).halted
  (List.range (if cut || n == 3 then min len 24 else len)).map fun j => (j, d.pni P.sar_seq_slot (32 * n + j))

/-- The monitor slots of R174: channels 16 to 23, acq 32, q and dr set. -/
def monitorSlots : List (Nat × Nat) := (List.range 8).map fun i => (24 + i, (16 + i) + 32 * 32 + 16384 + 32768)

/-- The slot list of the next pass; the monitors follow in sequencer 3, or in 2 while ADC3 is disabled. -/
def Dev.sarSlots (d : Dev) (n : Nat) : List (Nat × Nat) :=
  let off3 := (d.sar.seq.get {} 3).halted
  d.sarHostSlots n ++ (if (n == 3 && !off3) || (n == 2 && off3) then monitorSlots else [])

/-- Fields of a slot word (Table 05-2). -/
def slotCh (w : Nat) : Nat := fieldN w 0 5
def slotAcq (w : Nat) : Nat := fieldN w 5 8
def slotPd (w : Nat) : Bool := bitN w 13
def slotQ (w : Nat) : Bool := bitN w 14
def slotDr (w : Nat) : Bool := bitN w 15

/-- The length of a pass in PER cycles (R175). -/
def passLen (slots : List (Nat × Nat)) : Nat := slots.foldl (fun n s => n + slotAcq s.2 + 17 + 250 * bit01 (slotPd s.2)) 0

/-- Gains and the reference follow their parameters (R177, R178): a new gain discards the channel's pending ZERO and leaves two
conversions not valid; a new reference stops the sequencers at the end of their conversions. -/
def Dev.sarFollow (d : Dev) : Dev :=
  let d := (List.range 16).foldl (fun (d : Dev) n =>
    let c : SarChan := d.sar.ch.get {} n
    let g := d.pni P.sar_gain n
    if c.gain = g then d else { d with sar := { d.sar with ch := d.sar.ch.set n { c with gain := g, skip := 2, zeros := [] } } }) d
  let src := d.pn P.sar_ref_src
  if src = (if d.sar.settling then d.sar.extNext else d.sar.ext) then d
  else
    let busy := fun (q : SarSeq) => (q.run && decide (q.pos < q.slots.length)) || (q.cal.isSome && !d.sar.settling)
    let seq := (List.range 4).foldl (fun (m : Tab SarSeq) n => m.set n { m.get {} n with stop := busy (m.get {} n) || (m.get {} n).stop }) d.sar.seq
    { d with sar := { d.sar with settling := true, extNext := src, settleAt := d.clk, seq := seq } }

/-- What a stored set means for the converters: gains and reference, and a list of sequencer 2 that is cut while ADC3 is
disabled (R187). -/
def Dev.sarStored (d : Dev) (p : Tab Int) : Dev :=
  let d := d.sarFollow
  let long := (p.find (pkey P.sar_seq_len 2)).any fun v => decide (24 < v)
  if long && (d.sar.seq.get {} 3).disabled then d.raise Ev.SAR_SLOTS_CUT 2 else d

/-- The PACED sequencer whose pass supplies a channel's sample (R356). -/
def Dev.sarSource (d : Dev) (ch : Nat) : Option Nat :=
  (List.range 4).find? fun n =>
    d.pvi P.sar_seq_mode n == 1 && !(d.sar.seq.get {} n).halted && (d.sarSlots n).any fun s => slotCh s.2 == ch && slotQ s.2

/-- Item and operation codes of a set's members as source IDs, by port (R359). -/
def setMember (item p : Nat) : Nat :=
  if item = 0 then p else if item = 1 then 48 + p else 0x5000 + 4 * p + (if item = 2 then 0 else if item = 3 then 1 else 3)

def Dev.setPorts (d : Dev) (i : Nat) : List Nat := (List.range 48).filter (bitN (d.pni P.rec_set_ports i))

/-- The sample period of a source in ns, none for an ID that Table 11-1 does not give this device (R356). -/
def Dev.srcPeriod (d : Dev) (src : Nat) : Option Nat :=
  let i := src % 4096
  let chain : Option Preset := if i < 104 ∧ (96 ≤ i ∨ d.portArm (i % 48) < 6) then some (preset (d.chainPreset i)) else none
  let member := fun (s : Nat) => if s < 0x5000 then
      (if d.portArm (s % 48) < 6 then some (d.chainTin s * mTot (preset (d.chainPreset s))) else none)
    else if d.portArm ((s - 0x5000) / 4) < 6 then some (d.pn P.mod_t_mod_ns) else none
  match src / 4096 with
  | 0 => chain.map fun p => d.chainTin i * mTot p
  | 1 => chain.map fun p => d.chainTin i * (p.ms * p.m1)
  | 2 => chain.map fun p => d.chainTin i * p.ms
  | 3 => if i < 48 ∧ d.portArm i < 6 then some 160 else none
  | 4 => if i < 24 then (d.sarSource i).map (d.pni P.sar_seq_period_ns ·) else none
  | 5 => if i < 192 ∧ d.portArm (i / 4) < 6 then some (d.pn P.mod_t_mod_ns) else none
  | 6 => if d.arms.contains (i / 8) then some (d.pn P.mod_t_mod_ns) else none
  | 7 => if i ≤ 53 ∧ d.convLead then some d.tCtlNs else none
  | 14 =>
    if i < 16 then
      let ps := (d.setPorts i).map fun p => member (setMember (d.pni P.rec_set_item i) p)
      match ps with
      | some x :: r => if r.all (· == some x) then some x else none
      | _ => none
    else none
  | _ => none

/-- The sum of two fractions. -/
def fracAdd (x y : Nat × Nat) : Nat × Nat :=
  let n := x.1 * y.2 + y.1 * x.2
  let q := x.2 * y.2
  let g := max (Nat.gcd n q) 1
  (n / g, q / g)

/-- W_rec: 8 CORE cycles for each channel-sample consumed per modulation cycle (R252, R360). -/
def Dev.wRec (d : Dev) : Nat × Nat :=
  (List.range 256).foldl (fun w c =>
    let src := d.pni P.rec_ch_src c
    match d.srcPeriod src with
    | some p =>
      let m := if src / 4096 = 14 then (d.setPorts (src % 4096)).length else 1
      if src = 0xFFFF ∨ p = 0 then w else fracAdd w (8 * m * d.pn P.mod_t_mod_ns, p)
    | none => w) (0, 1)

/-! ## Capacity (R252) -/

/-- W_law and P_law (Table 07-4). -/
def Dev.lawWork (d : Dev) (ident : Bool) : Nat × Nat :=
  let (w, p) := match d.pn P.ctl_app with
    | 0 => (18000, 2400)
    | 1 => (15000, 2200)
    | _ => (12000, 2000)
  if ident then (w + 2000, p + 200) else (w, p)

/-- g, a and l of R236 and R241. -/
def Dev.nGroups (d : Dev) : Nat := d.groups.length
def Dev.nArms (d : Dev) : Nat := d.arms.length
def Dev.nLeads (d : Dev) : Nat := (d.arms.filter d.leadsArm).length
def Dev.rCrit (d : Dev) : Nat := d.nGroups + d.nArms + d.nLeads

/-- The law window is too short (R252). -/
def Dev.lawWindowBad (d : Dev) (ident : Bool) : Bool :=
  d.convLead && decide (78125 * ((d.tCtlNs : Int) - 4800) ≤ (((d.lawWork ident).2 + 400 : Nat) : Int) * 100000)

/-- R_need. -/
def Dev.rNeedWith (d : Dev) (ident : Bool) : Nat :=
  let c := 78125 * d.pn P.mod_t_mod_ns / 100000
  let (wl, pl) := d.lawWork ident
  let base := fracAdd (60 * d.nLeads + 96 + 8 * d.nGroups, 1) d.wRec
  let def_ := if d.convLead then fracAdd base (wl, max 1 (d.pn P.ctl_n_ctl)) else base
  let load := ceilDiv (100 * def_.1) (max 1 (def_.2 * d.pn P.cyc_load_max * c))
  let win : Nat := (78125 * ((d.tCtlNs : Int) - 4800) - ((pl + 400 : Nat) : Int) * 100000).toNat
  let law := if d.convLead then ceilDiv ((wl - pl) * 100000) (max 1 win) else 0
  d.rCrit + d.pn P.cyc_reed_reserve + max 1 (max load law)
def Dev.rNeed (d : Dev) : Nat := d.rNeedWith d.ctl.ident.isSome

/-- PD3 or PD4 is out of service (R258). -/
def Dev.reedDomainOff (d : Dev) (n : Nat) : Bool := (d.mode.doms.get {} (3 + n / 32)).faulty

/-- Reeds in scheduling. -/
def Dev.usableReeds (d : Dev) : List Nat :=
  (List.range 64).filter fun n => !bitN d.par.retReeds n && !d.reedDomainOff n && d.cyc.testing != some n

/-- The reeds not retired and not off: the reed under test is usable again at its end (R253). -/
def Dev.goodReeds (d : Dev) : Nat := ((List.range 64).filter fun n => !bitN d.par.retReeds n && !d.reedDomainOff n).length

/-- R253. -/
def Dev.capacityCheck (d : Dev) : Dev :=
  if d.goodReeds < d.rNeed then
    if d.cyc.capLow then d
    else
      let d := { d with cyc := { d.cyc with capLow := true } }.raise Ev.CYCLE_CAPACITY_LOW
      let full : Bool := match d.twin.twinHealth with
        | some h => h.full && h.state == 2
        | none => false
      if d.duplex && d.twin.role == .holder && full then d.segmentFault else d
  else { d with cyc := { d.cyc with capLow := false } }

/-! ## Reeds -/

def Dev.reed (d : Dev) (n : Nat) : Reed := d.cyc.reeds.get {} n
def Dev.setReed (d : Dev) (n : Nat) (r : Reed) : Dev := { d with cyc := { d.cyc with reeds := d.cyc.reeds.set n r } }

/-! ## Templates (R233 to R236, R238) -/

/-- The class of a task (Table 07-3). -/
def taskClass : Task → TaskClass
  | .pk4 _ | .kb _ | .count _ | .rank4 _ | .armrec _ | .build4 _ => .crit
  | .dly4 _ | .cap4 _ => .carry
  | .law _ => .law
  | .band _ | .digest => .lag
  | .recBlock _ => .back

/-- The priority of a class, the first the highest (Table 07-2). -/
def TaskClass.priority : TaskClass → Nat
  | .crit => 1
  | .carry => 2
  | .law => 3
  | .lag => 4
  | .back => 5

/-- The critical role of a CRIT or CARRY task (R241). -/
def Dev.critRole (d : Dev) : Task → Nat
  | .pk4 g | .dly4 g | .cap4 g | .rank4 g | .build4 g => g
  | .kb a | .count a => d.nGroups + d.arms.idxOf a
  | .armrec a => d.nGroups + d.nArms + (d.arms.filter d.leadsArm).idxOf a
  | _ => d.rCrit

/-- The tasks of a cycle in the order of their output slots (R233): those of a disabled function are absent, and the recorder's are as many
as W_rec fills (DESIGN CHOICE, log entry 130). -/
def Dev.cycleTasks (d : Dev) : List Task :=
  let gs := List.range d.nGroups
  let leads := d.arms.filter d.leadsArm
  let on := bitN d.mode.fnEnable
  gs.map .pk4 ++ d.arms.map .kb ++ (if on 3 then gs.map .dly4 else []) ++ (if on 2 then gs.map .cap4 else []) ++ d.arms.map .count
    ++ gs.map .rank4 ++ leads.map .armrec ++ gs.map .build4 ++ leads.map .band ++ [.digest]
    ++ (if d.convLead && on 4 then (List.range 5).map .law else [])
    ++ (if on 0 && d.acq.armed then (List.range (ceilDiv d.wRec.1 (400 * max 1 d.wRec.2))).map .recBlock else [])

/-- The tasks whose output slots a task reads. -/
def Dev.taskInputs (d : Dev) (ts : List Task) : Task → List Task
  | .kb a => (List.range d.nGroups).filterMap fun g => if (d.groups[g]?).any (fun x => x.1 == a) then some (.pk4 g) else none
  | .build4 g => (match d.groups[g]? with
    | some x => [.count x.1]
    | none => []) ++ [.rank4 g]
  | .digest => ts.filter fun x => taskClass x == .crit
  | _ => []

/-- The template of a cycle. -/
def Dev.template (d : Dev) : List TmplEntry :=
  let ts := d.cycleTasks
  (List.range ts.length).map fun i =>
    let x := ts.getD i .digest
    let crit := taskClass x == .crit || taskClass x == .carry
    { task := x, cls := taskClass x, affinity := if crit then d.critRole x else Config.taskAffinity i, inputs := (d.taskInputs ts x).map ts.idxOf, slot := i }

/-- The active bank of template memory. -/
def Dev.tmpl (d : Dev) : List TmplEntry := d.cyc.banks.get [] d.cyc.bank

/-- The template at a boundary: where the configuration gives another one, it stands in the other bank and that bank becomes active.
The boundary that CC1 names is the one at which the parameters and functions take effect (DESIGN CHOICE, log entry 130). -/
def Dev.templateSwitch (d : Dev) : Dev :=
  let t := d.template
  if d.tmpl = t then d
  else { d with cyc := { d.cyc with banks := d.cyc.banks.set (1 - d.cyc.bank) t, bank := 1 - d.cyc.bank } }

/-- The entry of a task in this cycle's template. -/
def Dev.tmplEntry (d : Dev) (x : Task) : Option TmplEntry := d.tmpl.find? fun e => e.task == x
def Dev.listed (d : Dev) (x : Task) : Bool := (d.tmplEntry x).isSome

/-- The output slot of a task, written and read. -/
def Dev.putSlot (d : Dev) (x : Task) (v : List Nat) : Dev :=
  match d.tmplEntry x with
  | some e => { d with cyc := { d.cyc with slots := d.cyc.slots.set e.slot v } }
  | none => d
def Dev.slot (d : Dev) (x : Task) : List Nat :=
  match d.tmplEntry x with
  | some e => d.cyc.slots.get [] e.slot
  | none => []

/-- The group of an own cell and its place in it. -/
def Dev.groupOf (d : Dev) (p : Nat) : Option (Nat × Nat) :=
  (List.range d.nGroups).findSome? fun g => match d.groups[g]? with
    | some x => (x.2.idxOf? p).map fun i => (g, i)
    | none => none

/-- The rank of an own cell in this cycle, none for one that is no candidate: RANK4's slot holds 1 more than it. -/
def Dev.rankOf (d : Dev) (p : Nat) : Option Nat :=
  match d.groupOf p with
  | some (g, i) => match (d.slot (.rank4 g)).getD i 0 with
    | 0 => none
    | r + 1 => some r
  | none => none

/-- The predicted voltage of an own cell in mV, as KB reads it from PK4's slot: 2^32 more where it is negative. -/
def Dev.predMv (d : Dev) (p : Nat) : Int :=
  match d.groupOf p with
  | some (g, i) => (BitVec.ofNat 32 ((d.slot (.pk4 g)).getD i 0)).toInt
  | none => 0

/-! ## Pools and deques (R241, R243, R255, R257, R258) -/

def Dev.dequeOf (d : Dev) (n : Nat) : List Task := d.cyc.deque.get [] n
def Dev.setDeque (d : Dev) (n : Nat) (l : List Task) : Dev := { d with cyc := { d.cyc with deque := d.cyc.deque.set n l } }

/-- The pools of the cycle: the critical one from the lowest usable reeds, the reserve from the highest. The role of a reed under
test stands on a reserve reed (R255). -/
def Dev.formPools (d : Dev) : Dev :=
  let us := (List.range 64).filter fun n => !bitN d.par.retReeds n && !d.reedDomainOff n
  let r := min (d.pn P.cyc_reed_reserve) (us.length - d.rCrit)
  let crit := us.take d.rCrit
  let rest := us.drop d.rCrit
  let defer := rest.take (rest.length - r)
  let reserve := rest.drop (rest.length - r)
  match d.cyc.testing with
  | none => { d with cyc := { d.cyc with crit := crit, defer := defer, reserve := reserve } }
  | some n =>
    let free := reserve.filter (· != n)
    let on := crit.contains n && !free.isEmpty
    { d with cyc := { d.cyc with crit := if on then crit.map fun x => if x = n then free.headD n else x else crit,
                                 defer := defer.filter (· != n), reserve := if on then free.drop 1 else free } }

/-- The reed that runs a task: the one of its critical role, or the one whose deque holds it. -/
def Dev.reedOf (d : Dev) (x : Task) : Option Nat :=
  if taskClass x == .crit || taskClass x == .carry then d.cyc.crit[d.critRole x]?
  else (d.cyc.deque.find? fun q => q.2.contains x).map (·.1)

/-- A LAW, LAG or BACK task is ready: at the tail of the deque of the reed that its affinity names (R243). -/
def Dev.place (d : Dev) (x : Task) : Dev :=
  match d.tmplEntry x with
  | none => d
  | some e =>
    if (d.reedOf x).isSome then d
    else match d.cyc.defer[e.affinity % max 1 d.cyc.defer.length]? with
      | some n => d.setDeque n (d.dequeOf n ++ [x])
      | none => d

/-- A task is complete on the reed that ran it (Table 07-6). -/
def Dev.ran (d : Dev) (x : Task) : Dev :=
  match d.reedOf x with
  | none => d
  | some n =>
    let d := { d with cyc := { d.cyc with reeds := d.cyc.reeds.set n { d.reed n with tasks := (d.reed n).tasks + 1 } } }
    if (d.dequeOf n).contains x then d.setDeque n ((d.dequeOf n).filter (· != x)) else d

/-- A task of this cycle is complete. -/
def Dev.did (d : Dev) (x : Task) : Dev :=
  if d.cyc.done.contains x then d else ({ d with cyc := { d.cyc with done := x :: d.cyc.done } }).ran x

/-- Reed `n` waits at a full queue (R234, R412). -/
def Dev.reedStalled (d : Dev) (n : Nat) : Bool := d.que.q.any fun q => (q.2.stalled.find n).isSome

/-- The tasks of a group in the order in which its reed runs them. -/
def groupOrder (g : Nat) : List Task := [.pk4 g, .dly4 g, .cap4 g, .rank4 g, .build4 g]

/-- A listed CRIT or CARRY task of this cycle may start: it has not run, its reed is free, and the tasks before it on that reed and
those whose slots it reads are complete (R236, R241). -/
def Dev.mayStart (d : Dev) (x : Task) : Bool :=
  let done := fun (y : Task) => d.cyc.done.contains y
  let before := match x with
    | .pk4 g | .dly4 g | .cap4 g | .rank4 g | .build4 g => ((groupOrder g).takeWhile (· != x)).filter d.listed
    | _ => []
  d.listed x && !done x && before.all done && (d.taskInputs [] x).all done
    && (match d.reedOf x with
      | some n => !d.reedStalled n
      | none => false)

/-- The cost bound of a task, CORE cycles (Table 07-3). -/
def Dev.taskCost (d : Dev) : Task → Nat
  | .pk4 _ => 64
  | .kb _ | .dly4 _ | .armrec _ => 40
  | .cap4 _ => 32
  | .count a => 16 + 4 * d.nSeg a
  | .rank4 g => 16 + 12 * (match d.groups[g]? with
    | some x => d.nSeg x.1
    | none => 0)
  | .build4 _ => 48
  | .band _ => 60
  | .digest => 96 + 8 * d.nGroups
  | .law _ | .recBlock _ => 400

/-- What a thief takes from a victim: half of its ready tasks of the highest priority present, rounded up and at most 8, from the
tail. -/
def stolen (l : List Task) : List Task :=
  let top := l.foldl (fun m x => min m (taskClass x).priority) 5
  let same := l.filter fun x => (taskClass x).priority == top
  same.reverse.take (min 8 (ceilDiv same.length 2))

/-- The first of these tasks, each with its dispatch of 24 CORE cycles, that end one after the other before t_(k+1) (R244). -/
def Dev.fitting (d : Dev) (used : Nat) : List Task → List Task
  | [] => []
  | x :: xs =>
    let n := used + d.taskCost x + 24
    if 5 * d.clk + 4 * n < 5 * (d.cyc.tk + d.tModTicks) then x :: d.fitting n xs else []

/-- Ready tasks move to the deque of a thief. -/
def Dev.moveTasks (d : Dev) (victim thief : Nat) (l : List Task) : Dev :=
  let d := d.setDeque victim ((d.dequeOf victim).filter fun x => !l.contains x)
  d.setDeque thief (d.dequeOf thief ++ l.reverse)

/-- What reed `n` would steal now and from whom: nothing while its own deque has a task. A deferrable reed probes from the next one
on; a critical reed after its BUILD4, from the place of its role on (DESIGN CHOICE, log entry 131), and only what fits. -/
def Dev.stealPlan (d : Dev) (n : Nat) : Option (Nat × List Task) :=
  let pool := d.cyc.defer
  let probe := fun (i : Nat) => (List.range pool.length).map fun j => pool.getD ((i + 1 + j) % max 1 pool.length) 0
  let first := fun (l : List Nat) => l.find? fun v => v != n && !(d.dequeOf v).isEmpty
  if !d.cyc.run || !(d.dequeOf n).isEmpty || d.reedStalled n then none
  else match pool.idxOf? n with
    | some i => (first (probe i)).map fun v => (v, stolen (d.dequeOf v))
    | none => match d.cyc.crit.idxOf? n with
      | some q =>
        if d.cyc.done.contains (.build4 q) then (first (probe q)).map fun v => (v, d.fitting 0 (stolen (d.dequeOf v)))
        else none
      | none => none

/-- Reed `n` leaves scheduling in the course of a cycle: its critical role passes to a reserve reed, or else to a usable one with a
shadow's records (R257, R258), and its other tasks go to the deferrable pool. -/
def Dev.reedGone (d : Dev) (n : Nat) : Dev :=
  let c := d.cyc
  let l := d.dequeOf n
  let spare := (c.reserve.filter (· != n) ++ (c.defer.filter (· != n)).reverse).head?
  let out := fun (s : Nat) (x : List Nat) => x.filter fun y => y != n && y != s
  let c := match c.crit.idxOf? n, spare with
    | some _, some s => { c with crit := c.crit.map (fun x => if x = n then s else x), defer := out s c.defer, reserve := out s c.reserve }
    | _, _ => { c with defer := out n c.defer, reserve := out n c.reserve }
  l.foldl (fun (d : Dev) x => d.place x) { d with cyc := { c with deque := c.deque.erase n } }

/-- A task stopped on reed `n` goes elsewhere: a critical role to a reserve reed, whose place the stopped reed takes (DESIGN CHOICE,
DESIGN CHOICE, log entry 131), another task to the next reed of the deferrable pool (R257). -/
def Dev.moveAway (d : Dev) (n : Nat) (x : Task) : Dev :=
  let c := d.cyc
  if taskClass x == .crit || taskClass x == .carry then
    match c.reserve with
    | s :: r => { d with cyc := { c with crit := c.crit.map (fun y => if y = n then s else y), reserve := n :: r } }
    | [] => d
  else
    let pool := c.defer
    let next := pool.getD ((pool.idxOf n + 1) % max 1 pool.length) n
    d.moveTasks n next [x]

/-- Reed `n` has a task to run: an unfinished CRIT or CARRY task of its role, or a ready one. -/
def Dev.busyReed (d : Dev) (n : Nat) : Bool :=
  !(d.dequeOf n).isEmpty || d.tmpl.any fun e => !d.cyc.done.contains e.task && d.reedOf e.task == some n

/-! ## Reed errors (R256, R257) -/

/-- A reed is retired, in configuration too. -/
def Dev.retireReed (d : Dev) (n : Nat) : Dev :=
  if bitN d.par.retReeds n then d
  else
    let d := { d with par := { d.par with retReeds := maskOf 64 fun i => i == n || bitN d.par.retReeds i } }
    (({ d with cyc := { d.cyc with testing := if d.cyc.testing = some n then none else d.cyc.testing } }.raise
      Ev.CYCLE_REED_RETIRED n).reedGone n).capacityCheck

/-- An error counted against a reed. -/
def Dev.reedError (d : Dev) (n : Nat) : Dev :=
  let r := d.reed n
  let b := min 65535 (r.bucket + 64)
  let d := d.setReed n { r with bucket := b, erred := true }
  if d.pn P.cyc_reed_err_limit ≤ b then d.retireReed n else d

/-- A task stopped on a reed is rerun elsewhere with the same result (R257). -/
def Dev.rerunFrom (d : Dev) (n : Nat) : Dev :=
  let r := d.reed n
  (d.setReed n { r with reruns := r.reruns + 1 }).raise Ev.CYCLE_TASK_RERUN n

end Sys2Proof.Machine
end

