-- ==== Sys2Proof/Machine/ArmOps.lean ====
section
/-!
DEFINITION. Machine/ArmOps.lean: the decision path of an arm (R35 to R81): prediction, keys, blocks, count, order,
commands, delays and capacitances.
-/
namespace Sys2Proof.Machine

open Sys2Proof

/-- T_mod and mod.dly_max_ns in TBASE ticks. -/
def Dev.gTicks (d : Dev) : Nat := ticksOfNs (d.pn P.mod_dly_max_ns)
/-- The decision instant t_k, in ticks of control time. -/
def Dev.tOf (d : Dev) (k : Nat) : Int := (k : Int) * d.tModTicks
/-- The snapshot of t_k holds the outputs released at or before t_k − 0.5 µs (R239); `rel` in units of 0.5 µs. -/
def Dev.snapHolds (d : Dev) (rel : Nat) : Bool := decide ((rel : Int) * 500 ≤ (d.cyc.k * d.pn P.mod_t_mod_ns : Nat) - 500)
/-- Ticks as seconds. -/
def secs (t : Int) : F32 := f32ofRat (t * 16) 10000000000

/-- A value on the line through two samples. -/
def lineAt (v1 : F32) (t1 : Int) (v2 : F32) (t2 t : Int) : F32 :=
  if t2 = t1 then v2
  else
    let r := if t2 < t1 then f32ofRat (t2 - t) (t1 - t2).toNat else f32ofRat (t - t2) (t2 - t1).toNat
    f32add v2 (f32mul (f32sub v2 v1) r)

/-- The bracketing pair of ok outputs, newest first, for an instant: the last two for a later one. -/
def bracket : List Sample → Int → Option (Sample × Sample)
  | b :: a :: r, t => if a.t ≤ t then some (a, b) else match bracket (a :: r) t with
    | some x => some x
    | none => some (a, b)
  | _, _ => none

/-- A REF chain at an instant, from the ok outputs of the snapshot (R166): extrapolated for at most mod.est_hold_us. -/
def Dev.refAt (d : Dev) (src : Nat) (hist : List Sample) (t : Int) : Option F32 :=
  match hist with
  | [] => none
  | s :: _ =>
    if s.t + (ticksOfUs (d.pn P.mod_est_hold_us) : Nat) < t then none
    else match bracket hist t with
      | some (a, b) => some (lineAt a.v a.t b.v b.t t)
      | none => if src < 8 then some s.v else none

/-- arm_current_at (R42, R43, R166). -/
def Dev.armCurrent (d : Dev) (a : Nat) (t : Int) : Option F32 :=
  let src := d.pn P.mod_iarm_src
  if src < 8 then d.refAt src (d.cyc.snapHist.get [] (96 + src)) t
  else
    let hold : Int := (ticksOfUs (d.pn P.mod_est_hold_us) : Nat)
    let bs := (d.armSt a).lead.filter fun b => decide (b.1 < d.cyc.k) && decide (d.tOf d.cyc.k - hold ≤ d.tOf b.1)
    match bs with
    | b :: c :: _ => some (lineAt (f32ofRat c.2 1000) (d.tOf c.1) (f32ofRat b.2 1000) (d.tOf b.1) t)
    | [b] => some (f32ofRat b.2 1000)
    | [] => none

/-- The polarity of an executed state. -/
def polarity : CellCmd → Int
  | .pos => 1
  | .neg => -1
  | .byp | .blk => 0

/-- What a schedule, newest first, holds within [a, b]: the spans of its states, oldest first. -/
def spansIn : List (Int × CellCmd) → Int → Int → List (Int × Int × CellCmd)
  | [], _, _ => []
  | (t, s) :: r, a, b =>
    let lo := max t a
    spansIn r a (min b lo) ++ (if lo < b then [(lo, b, s)] else [])

/-- Σ polarity × time over [a, b] of a schedule. -/
def insertedTicks (sched : List (Int × CellCmd)) (a b : Int) : Int :=
  (spansIn sched a b).foldl (fun n x => n + polarity x.2.2 * (x.2.1 - x.1)) 0

/-- signed_insertion_fraction (R42). -/
def insertedFraction (sched : List (Int × CellCmd)) (a b : Int) : F32 :=
  if b ≤ a then f0 else f32ofRat (insertedTicks sched a b) (b - a).toNat

/-- A sample is ok (R166). -/
def Sample.ok (s : Sample) : Bool := s.tag % 64 == 1

/-- A value times 1,000, rounded half up. -/
def milli (v : F32) : Int := (2 * f32floor 60 v * 1000 + 2 ^ 60) / (2 * 2 ^ 60)

/-- c.cap, in farads (R45). -/
def Dev.capOf (d : Dev) (c : CellRec) : F32 := if c.cap = 0 then f32ofRat (d.pn P.mod_cap_nom_uf) 1000000 else c.cap

/-- The prediction task for one cell (R42, R44, R48). -/
def Dev.predict (d : Dev) (p : Nat) : Dev :=
  let c := d.cell p
  let a := d.portArm p
  let k := d.cyc.k
  let tk := d.tOf k
  let t1 := d.tOf (k - 1)
  let live := (d.port p).stage == .run || d.simCell p
  let smp := d.cyc.snapMeas.find p
  let ik? := d.armCurrent a tk
  let okCv : Bool := match smp with
    | some s => s.ok && live
    | none => false
  let ok := okCv && ik?.isSome
  let step := (tk - t1).toNat
  let (d, v, c) :=
    if ok then match smp with
      | some s =>
        let is := (d.armCurrent a s.t).getD f0
        let ik := ik?.getD f0
        let rho := insertedFraction c.sched s.t tk
        let q := f32mul (f32mul (f32mul rho fHalf) (f32add is ik)) (secs (tk - s.t))
        (d, f32add s.v (f32div q (d.capOf c)), { c with hold := 0, seen := true })
      | none => (d, c.vPred, c)
    else if c.seen then
      match ik?, d.armCurrent a t1 with
      | some ik, some ip =>
        let rho := insertedFraction c.sched t1 tk
        let q := f32mul (f32mul (f32mul rho fHalf) (f32add ip ik)) (secs (tk - t1))
        (d, f32add c.vPred (f32div q (d.capOf c)), { c with hold := c.hold + step })
      | _, _ => (d.drawn, d.freeVal 32, { c with hold := c.hold + step })
    else (d, f0, c)
  let mv := milli v
  let bad := !f32finite v || decide (mv < -2147483648) || decide (2147483647 < mv)
  let ended := decide (ticksOfUs (d.pn P.mod_est_hold_us) < c.hold)
  let c' := { c with vPred := v, degraded := c.seen && !ok, holdOver := ended, badPred := bad }
  let d := d.setCell p c'
  if (bad && !c.badPred) || (ended && !c.holdOver) then d.raise Ev.MOD_EST_DEGRADED (d.cellEv p) else d

/-- The cell may be selected (R39, R42, R44, R48, R56, R67, R74, R75, R104, R109, R134, R438). -/
def Dev.usableCell (d : Dev) (p : Nat) : Bool :=
  let c := d.cell p
  let x := d.port p
  d.cellAt p && !bitN d.mode.causes 0 && c.seen && !c.holdOver && !c.badPred && c.retiring.isNone && !c.lost && !bitN d.par.retCells p && !d.portGone p
    && !x.mixBad && !x.capBad && !x.late && !x.fibreBad && !bitN d.mode.simLive p && x.realign.isNone && !x.mustAlign && !(d.armSt (d.portArm p)).isolated

/-- The cell is operated as a full-bridge cell (R39). -/
def Dev.fbCell (d : Dev) (p : Nat) : Bool := d.pv P.mod_cell_mix != 0 && bitN ((d.port p).caps.get 0 1) 0

/-- Key units: v in mV over 100, rounded half up and clamped (R48). -/
def keyOf (mv : Int) : Nat := (clampInt 0 0xFFFE ((2 * mv + 100) / 200)).toNat

/-- In DEBLOCKED a cell's prediction is not used for insertion before the cell has spent one full cycle in a state other
than BLK (R42): it keeps its place in the counts and carries the key 0xFFFF (DEDUCED, log entry 44). -/
def Dev.noInsert (d : Dev) (p : Nat) : Bool := d.mode.conv == .deblocked && decide ((d.cell p).nonBlk < 1)

/-- The key of an own cell (R48). -/
def Dev.cellKey (d : Dev) (p : Nat) : Nat :=
  let c := d.cell p
  let a := d.armSt (d.portArm p)
  if d.usableCell p && !d.noInsert p then
    keyOf (d.predMv p - (if a.dir then 1 else -1) * polarity c.last * (a.bandNext : Nat))
  else 0xFFFF

/-- The own key block of an arm (R51, R52). -/
def Dev.keyBlock (d : Dev) (a : Nat) : Dev × KeyBlock :=
  let st := d.armSt a
  let mine := fun p => d.portArm p == a && d.cellAt p
  let use := (List.range 48).filter fun p => mine p && d.usableCell p
  let mvs := use.map d.predMv
  let tk := d.tOf d.cyc.k
  let i? := d.armCurrent a tk
  let (d', iMa) : Dev × Int := match i? with
    | some i => (d, clampInt (-2147483648) 2147483647 (milli i))
    | none => (d.drawn, (d.freeVal 32).toInt)
  let lead := d.leadsArm a
  let dead := f32ofInt (d.pv P.mod_dir_dead_a)
  let dir : Bool := match i? with
    | some i => if f32gt i dead then true else if f32lt i (f32neg dead) then false else st.dirLead
    | none => st.dirLead
  let lo := mvs.foldl min (mvs.headD 0)
  let hi := mvs.foldl max (mvs.headD 0)
  let b : KeyBlock :=
    { cycLo := d.cyc.k % 65536, seg := d.segIn a, twinB := d.letterB, arm := a, holder := d.holds,
      solo := !d.duplex, rep := d.cyc.rep, isolated := st.isolated, dir := lead && dir, nUse := use.length,
      nFb := (use.filter d.fbCell).length, presence := st.presence, vSum := wrapN 32 (mvs.foldl (· + ·) 0), iArm := iMa,
      uEcho := st.uPrev, band := if lead then st.band else st.bandNext,
      vMin := if use.isEmpty then 0xFFFF else keyOf lo, vMax := if use.isEmpty then 0 else keyOf hi,
      keys := (List.range 48).map fun p => if mine p then d.cellKey p else 0xFFFF,
      states := (List.range 48).map fun p =>
        let c := d.cell p
        if mine p then { present := true, usable := d.usableCell p, last := c.last, fb := d.fbCell p, frac := c.lastFrac,
                         degraded := c.degraded, retiring := c.retiring.isSome }
        else {} }
  let d' := d'.setArm a { d'.armSt a with own := some b, dirLead := if lead then dir else st.dirLead }
  (d', b)

/-! ## Reference (R40, R41) -/

/-- The record that applies to a cycle. -/
def recordFor (refs : List RefRec) (k : Nat) : Option RefRec :=
  refs.foldl (fun (best : Option RefRec) r =>
    if r.c0 ≤ k ∧ k < r.c0 + r.nc then match best with
      | some b => if b.c0 < r.c0 then some r else best
      | none => some r
    else best) none

/-- u_ref(k) of a record (R40). -/
def refValue (r : RefRec) (k : Nat) : Int := r.u0 + ((k - r.c0 : Nat) : Int) * r.du / 256

/-- A record stored for an arm it serves; cmd = 3 is not applied and counted as a late block (R40). -/
def Dev.storeRef (d : Dev) (twin : Bool) (r : RefRec) : Dev :=
  if d.arms.contains r.arm then
    let st := d.armSt r.arm
    if r.cmd = 3 then d.setArm r.arm { st with late := st.late + 1 }
    else if st.refs.any (fun x => x.r.c0 == r.c0 && x.twin == twin) then d
    else d.setArm r.arm { st with refs := (⟨r, d.clk, twin⟩ :: st.refs).take 16 }
  else d

/-- The record that applies to the cycle in progress: the own one, for its first cycle received by t_c0, else the twin's, then
received by t_c0 + 0.15 µs (R40, R193). -/
def Dev.recordNow (d : Dev) (a : Nat) : Option RefRec :=
  let k := d.cyc.k
  let held := fun (twin : Bool) (ns : Nat) => ((d.armSt a).refs.filter fun (x : RefGot) =>
    x.twin == twin && (decide (x.r.c0 < k) || decide (8 * x.got ≤ 8 * d.cyc.tk + 5 * ns))).map (·.r)
  match recordFor (held false 0) k with
  | some r => some r
  | none => recordFor (held true 150) k

/-! ## Blocks of a cycle (R53 to R57) -/

/-- A block counted as received in this cycle for its segment. -/
def Dev.takeBlock (d : Dev) (a : Nat) (b : KeyBlock) (fresh : Bool) : Dev :=
  let st := d.armSt a
  let st := { st with blocks := st.blocks.set b.seg b,
                      fresh := if fresh then maskOf 16 (fun i => i == b.seg || bitN st.fresh i) else st.fresh,
                      lastFresh := if fresh then st.lastFresh.set b.seg (d.cyc.k, b) else st.lastFresh,
                      lead := if fresh && b.seg == d.pni P.mode_arm_lead_seg a then ((d.cyc.k, b.iArm) :: st.lead).take 4 else st.lead }
  d.setArm a st

/-- The blocks of the arm count as gathered: missing ones are substituted, or their segment is unseen (R55), and the selection
starts with the record held then (R23). -/
def Dev.fillBlocks (d : Dev) (a : Nat) : Dev :=
  let n := d.nSeg a
  let d := (List.range n).foldl (fun d j =>
    let st := d.armSt a
    if (st.blocks.find j).isSome then d
    else match st.lastFresh.find j with
      | some (c, b) =>
        if d.cyc.k ≤ c + d.pn P.mod_blk_hold then ((d.setArm a { st with substs := st.substs + 1 }).takeBlock a b false).raise Ev.MOD_BLOCK_SUBST (cellArg a j 0)
        else d.raise Ev.MOD_SEG_UNSEEN (cellArg a j 0)
      | none => d.raise Ev.MOD_SEG_UNSEEN (cellArg a j 0)) d
  let st := d.armSt a
  let lead := st.blocks.find (d.pni P.mode_arm_lead_seg a)
  -- direction and band of the next cycle (R47, R48)
  let st := match lead with
    | some b => { st with dirNext := b.dir, bandNext := b.band }
    | none => st
  let me := d.segIn a
  -- presence vectors of the others about the own block (R56): a run counts vectors read in consecutive cycles (DEDUCED, log entry 116)
  let others := (List.range n).filter (· != me)
  let lacks := others.foldl (fun (m : Tab Nat) j => match st.blocks.find j with
    | some b => m.set j (if bitN st.fresh j && !bitN b.presence me then m.get 0 j + 1 else 0)
    | none => m.set j 0) st.lacks
  let iso := others.any fun j => decide (d.pn P.mod_blk_hold < lacks.get 0 j)
  let clean := others.all fun j => !bitN st.fresh j || (match st.blocks.find j with
    | some b => bitN b.presence me
    | none => true)
  let nclean := if st.isolated then (if clean then st.isoClean + 1 else 0) else 0
  let was := st.isolated
  let now := if was then decide (nclean < 16) else iso
  -- echo of the reference (R57)
  let diff : Bool := match lead with
    | some b => bitN st.fresh b.seg && b.uEcho != st.uPrev
    | none => false
  let bad : Nat := if diff then st.echoBad + 1 else 0
  let rc : Option RefRec := if 2 ≤ bad then none else d.recordNow a
  let st := { st with presence := st.fresh, gathered := true, lacks := lacks, isolated := now, isoClean := nclean, echoBad := bad,
                      record := rc, uRef := rc.map fun r => refValue r d.cyc.k }
  let d := d.setArm a st
  let d := if now && !was then d.raise Ev.MOD_SEG_ISOLATED (cellArg a me 0) else d
  if diff then d.raise Ev.MOD_REF_MISMATCH (cellArg a me 0) else d

/-- The blocks of an arm count as gathered, and the BAND task of its lead is ready (R236, R237). -/
def Dev.gatherArm (d : Dev) (a : Nat) : Dev :=
  let d := d.fillBlocks a
  if d.leadsArm a then d.place (.band a) else d

/-- The same as soon as every block has been received (R237). -/
def Dev.gatherAll (d : Dev) (a : Nat) : Dev :=
  let st := d.armSt a
  if d.cyc.run && !st.gathered && (List.range (d.nSeg a)).all fun j => (st.blocks.find j).isSome then d.gatherArm a else d

/-! ## Count and order (R58, R59) -/

/-- The count of an arm from its gathered blocks and its reference. -/
structure Count where
  mq : Int
  n : Nat
  f : Nat
  neg : Bool
  sat : Bool
  nUse : Nat
  nFb : Nat
  deriving DecidableEq, Repr

/-- R58, from the arm totals. -/
def countOf (hb nlm : Bool) (nUse nFb vSum : Nat) (uRef : Int) : Count :=
  let m := if nUse = 0 ∨ vSum = 0 then 0 else 10 * uRef * nUse * 65536 / (vSum : Int)
  let hi : Int := 65536 * nUse
  let lo : Int := if hb then 0 else -(65536 * (nFb : Int))
  let mq := clampInt lo hi m
  let neg := decide (mq < 0)
  let a := mq.natAbs
  let (n, f) := if nlm then ((a + 32768) / 65536, 0) else (a / 65536, a % 65536)
  let avail := if neg then nFb else nUse
  let (n, f) := if avail ≤ n then (avail, 0) else (n, f)
  ⟨mq, n, f, neg, decide (mq ≠ m), nUse, nFb⟩

/-- A candidate of R59 as (key, segment, port). -/
abbrev Cand := Nat × Nat × Nat

/-- The candidates of the gathered blocks. -/
def candidates (blocks : Tab KeyBlock) (neg : Bool) : List Cand :=
  blocks.flatMap fun b => (List.range 48).filterMap fun p =>
    let s := b.2.states.getD p {}
    let key := b.2.keys.getD p 0xFFFF
    if s.usable && (!neg || s.fb) && key != 0xFFFF then some (key, b.1, p) else none

/-- The total order of R59. -/
def precedes (charging : Bool) (x y : Cand) : Bool :=
  if x.1 ≠ y.1 then (if charging then decide (x.1 < y.1) else decide (y.1 < x.1))
  else if x.2.1 ≠ y.2.1 then decide (x.2.1 < y.2.1)
  else decide (x.2.2 < y.2.2)

/-- The rank of a cell among the candidates (R236). -/
def rankIn (cands : List Cand) (charging : Bool) (x : Cand) : Nat := (cands.filter fun y => precedes charging y x).length

/-! ## Commands (R60 to R68) -/

/-- t_on of the fractional cell (R61). -/
def onTicks (f t minp : Nat) : Nat :=
  let x := (f * t + 32768) / 65536
  let x := if x < minp then 0 else x
  if t - x < minp then t else x

/-- The transition class of R69 for a passage to a state: entry (a direct polarity change too) or exit, and the
current's sign. -/
def dlyClass (new : CellCmd) (pos : Bool) : Nat :=
  (if polarity new != 0 then 0 else 2) + (if pos then 0 else 1)

/-- The delay estimate of a class, g / 2 at start (R69). -/
def cellDelay (c : CellRec) (g cls : Nat) : Int := c.dly.getD cls ((g / 2 : Nat) : Int)

/-- δ̂ for a passage to a state near instant `x`, within 0 and g (R63). A current of zero counts as positive, and where the arm
current has no value dir_k gives the sign (DESIGN CHOICE, log entry 118). -/
def Dev.delayFor (d : Dev) (p : Nat) (x : Int) (new : CellCmd) : Int :=
  let pos : Bool := match d.armCurrent (d.portArm p) x with
    | some i => !f32lt i f0
    | none => (d.armSt (d.portArm p)).dir
  clampInt 0 d.gTicks (cellDelay (d.cell p) d.gTicks (dlyClass new pos))

/-- A state change issued at offset `off` of the cycle that starts at `base`, its absolute instant strictly after the last
one and at most 65,535 ticks after `base` (R63, R66). It joins the executed schedule, `dl` later, or mode.sim_dly_ns later on a modelled cell (R42, R481), and where it
changes the terminal voltage the transitions that an edge is expected for (R71). -/
def Dev.issueAt (d : Dev) (p : Nat) (base off dl : Int) (new : CellCmd) : Dev × Nat :=
  let c := d.cell p
  let old := (c.sched.head?.map (·.2)).getD .blk
  let a := min (if base + off ≤ c.lastInst then c.lastInst + 1 else base + off) (base + 65535)
  let exec := if d.simCell p then a + (ticksOfNs (d.pn P.mode_sim_dly_ns) : Nat) else a + dl
  let c := { c with lastInst := a, sched := if old = new then c.sched else ((exec, new) :: c.sched).take 1024,
                    trans := if old = new ∨ (old = .blk ∧ new = .byp) ∨ (old = .byp ∧ new = .blk) ∨ !bitN d.mode.fnEnable 3 then c.trans else (a, old, new) :: c.trans }
  (d.setCell p c, (a - base).toNat)

/-- A state change that is nominal at offset `x` of its cycle (R63). -/
def Dev.issue (d : Dev) (p : Nat) (base x : Nat) (new : CellCmd) : Dev × Nat :=
  let dl := d.delayFor p ((base + x : Nat) : Int) new
  d.issueAt p base ((x : Int) + d.gTicks - dl) dl new

/-- The state a cell is selected for, and whether it is the fractional cell (R38, R41, R59, R60, R67); a cell
whose fibre is too long is held in BLK (R74). -/
def Dev.selected (d : Dev) (p : Nat) : CellCmd × Bool :=
  let a := d.armSt (d.portArm p)
  let cmd := (a.record.map (·.cmd)).getD 0
  let ins : CellCmd := if a.neg then .neg else .pos
  if d.mode.conv ≠ .deblocked ∨ cmd = 2 ∨ a.blockAll ∨ (d.port p).fibreBad ∨ bitN d.mode.simLive p then (.blk, false)
  else if cmd = 1 then (.byp, false)
  else match d.rankOf p with
    | some r => if r < a.n then (ins, false) else if r = a.n ∧ 0 < a.f then (ins, true) else (.byp, false)
    | none => (.byp, false)

/-- The bypass-switch fire request (R78, R126): d cycles after the retirement began, until BYPASSED is reported, and for the
whole second after a port's retirement. -/
def Dev.fires (d : Dev) (p : Nat) : Bool :=
  let c := d.cell p
  let x := d.port p
  let gone := x.retired && !x.fillOnly
  match c.retiring with
  | some k0 => decide (k0 + d.depth ≤ d.cyc.k) && (x.head != 5 || gone)
  | none => gone && bitN d.par.retCells p

/-- The command frame of a cell for target cycle k + d (R61 to R67). -/
def Dev.buildFrame (d : Dev) (tx : Tx) (p : Nat) : Dev × CmdFrame :=
  let k := d.cyc.k
  let target := k + d.depth
  let t := d.tModTicks
  let base := target * t
  let (s, frac) := d.selected p
  let on := if frac then onTicks (d.armSt (d.portArm p)).f t (ticksOfNs (d.pn P.mod_min_pulse_ns)) else 0
  let x := d.port p
  let head : Bool × Nat := match x.raise with
    | some _ => (false, (d.twin.oldEpoch) % 64)
    | none => (d.holds, d.twin.epoch % 64)
  let fire := d.fires p
  let mk := fun (s1 : CellCmd) (a1 : Nat) (sec : Option (CellCmd × Nat)) => (⟨tx.sb, head.1, head.2, fire, target % 256, s1, a1, sec⟩ : CmdFrame)
  if frac && decide (0 < on) && decide (on < t) then
    let (s1, s2, x2) : CellCmd × CellCmd × Nat := if k % 2 = 0 then (s, .byp, on) else (.byp, s, t - on)
    let (d, a1) := d.issue p base 0 s1
    let (d, a2) := d.issue p base x2 s2
    (d, mk s1 a1 (some (s2, a2)))
  else
    let s1 := if frac && on == 0 then .byp else s
    let (d, a1) := d.issue p base 0 s1
    (d, mk s1 a1 none)

/-- A command frame leaves for the cell of a port in RUN, in a retrain, or retired for less than one second (R93, R107,
R126). -/
def Dev.sendCmd (d : Dev) (tx : Tx) (p target : Nat) (f : CmdFrame) : Dev :=
  let x := d.port p
  if d.fullTraffic && d.cyc.fallback.isNone && x.commands then
    (d.setPort p { x with sent := ((target, f) :: x.sent).take 8 }).sendFrame tx p (.cmd f)
  else d

/-- A command frame of this cycle: built, sent and remembered (R63 to R67, R78). -/
def Dev.build (d : Dev) (tx : Tx) (p : Nat) : Dev :=
  let old := d.cell p
  let (s, frac) := d.selected p
  let (d, f) := d.buildFrame tx p
  let c := d.cell p
  let k := d.cyc.k
  let d := d.setCell p { c with lastFrame := some (k + d.depth, f), prev := some ⟨old.lastFrame, old.sched, old.trans, old.lastInst, old.last, old.lastFrac⟩,
                                last := s, lastFrac := frac,
                                fired := if f.fire && c.fired.isNone && c.retiring.isSome then some d.clk else c.fired,
                                firstCmd := if s ≠ .blk ∧ d.mode.conv = .deblocked ∧ c.firstCmd = none then some (d.tOf k) else c.firstCmd }
  d.sendCmd tx p (k + d.depth) f

/-- The frame of the cycle in progress is taken back: its outputs are discarded, and it leaves no more where it still waits
(R68, R247). -/
def Dev.unbuild (d : Dev) (p : Nat) : Dev :=
  let c := d.cell p
  let target := d.cyc.k + d.depth
  match c.prev, c.lastFrame with
  | some b, some (k, _) =>
    if k ≠ target then d
    else
      let d := d.setCell p { c with lastFrame := b.frame, prev := none, sched := b.sched, trans := b.trans, lastInst := b.inst, last := b.last,
                                    lastFrac := b.frac }
      d.setDl p { d.dl p with wait := (d.dl p).wait.filter fun w => match w.frame with
        | .cmd f => f.seq != target % 256
        | .ctrl _ => true }
  | _, _ => d

/-- After a first overrun, the states and offsets of the previous cycle's frame for the new target, on every own cell
(R68): one whose frame of this cycle has begun gets a second one (DEDUCED, log entry 121). -/
def Dev.repeatFrame (d : Dev) (tx : Tx) (p : Nat) : Dev :=
  let d := d.unbuild p
  let target := d.cyc.k + d.depth
  let base : Int := ((target * d.tModTicks : Nat) : Int)
  let again := fun (d : Dev) (s : CellCmd) (off : Nat) => d.issueAt p base off (d.delayFor p (base + off) s) s
  match (d.cell p).lastFrame with
  | some (_, f) =>
    let (d, a1) := again d f.s1 f.a1
    let (d, sec) : Dev × Option (CellCmd × Nat) := match f.second with
      | some (s, off) =>
        let (d, a2) := again d s off
        (d, some (s, a2))
      | none => (d, none)
    let f := { f with sb := tx.sb, seq := target % 256, h := d.holds, epoch := d.twin.epoch % 64, fire := d.fires p, a1 := a1, second := sec }
    (d.setCell p { d.cell p with lastFrame := some (target, f) }).sendCmd tx p target f
  | none => d

end Sys2Proof.Machine
end

