-- ==== Sys2Proof/Machine/Arm.lean ====
section
/-!
DEFINITION. Machine/Arm.lean: the tasks of the decision path and the blocks that arrive for it (R42 to R81, R236,
R279 to R287, R194).
-/
namespace Sys2Proof.Machine

open Sys2Proof

/-! ## Tasks (R235, R236) -/

/-- A CRIT task may run: the cycle's command deadline has not abandoned it (R247). -/
def Dev.crit (d : Dev) : Bool := d.cyc.run && !d.cyc.judged && !d.cyc.segFault

/-- The command deadline of an arm has passed: t_cmd = t_k + 0.90 µs + 0.068 µs × n_seg (Table 07-2). -/
def Dev.pastCmd (d : Dev) (a : Nat) : Bool := decide (900000 + 68000 * d.nSeg a < (d.clk - d.cyc.tk) * 1600)

/-- A CRIT task of an arm runs: one not complete at the deadline is abandoned. -/
def Dev.critRuns (d : Dev) (a : Nat) (x : Task) : Bool := d.crit && !d.pastCmd a && d.mayStart x

/-- A CARRY task that the last cycle dispatched is still to run (R233, R247). -/
def Dev.carryOwed (d : Dev) (x : Task) : Bool := !d.cyc.skip1 && d.cyc.asked1.any (fun y => y.1 == x) && !d.cyc.done1.contains x

/-- A CARRY task runs: the last cycle's first, and none of a cycle that overran (R247). -/
def Dev.carryRuns (d : Dev) (x : Task) : Bool := d.cyc.run && (d.carryOwed x || (!(d.cyc.judged && d.cyc.rep) && d.mayStart x))

/-- It is complete, for the last cycle or for this one. -/
def Dev.carryDid (d : Dev) (x : Task) : Dev :=
  if d.carryOwed x then ({ d with cyc := { d.cyc with done1 := x :: d.cyc.done1 } }).ran x else d.did x

/-- The arm and the cells of a group. -/
def Dev.groupArm (d : Dev) (g : Nat) : Nat := ((d.groups[g]?).map (·.1)).getD 0
def Dev.groupCells (d : Dev) (g : Nat) : List Nat := ((d.groups[g]?).map (·.2)).getD []

/-- PK4: prediction and keys of a group (R42, R44, R48). -/
def execPk4Task (t : Nat) (g : Nat) (s : State) : Answer :=
  s.upd t (g < 12) fun _ d =>
    if !d.critRuns (d.groupArm g) (.pk4 g) then d
    else
      let d := (d.groupCells g).foldl Dev.predict d
      (d.putSlot (.pk4 g) ((d.groupCells g).map fun p => wrapN 32 (milli (d.cell p).vPred))).did (.pk4 g)

/-- KB: after every PK4 of the arm, its own key block, sent on ports E and W, and over T where the twin wants it (R51, R279, R285). -/
def execKbTask (t : Nat) (arm : Nat) (s : State) : Answer :=
  s.upd t (arm < 6) fun _ d =>
    if !d.critRuns arm (.kb arm) then d
    else
      let (d, b) := d.keyBlock arm
      let d := d.takeBlock arm b true
      let n := d.nSeg arm
      let (e, w) := d.reachOf n (d.segIn arm)
      let d :=
        if !d.fullTraffic then d
        else
          let d := if decide (0 < e) then d.give 0 (.key b false) else d
          let d := if decide (0 < w) then d.give 1 (.key b false) else d
          if bitN (d.armSt arm).twinWants b.seg then d.give 2 (.key b false) else d
      (d.gatherAll arm).did (.kb arm)

/-- A KEY unit arrives: counted for the cycle, forwarded cut-through within its reach, a failed one with the complement
of its CRC (R53, R54, R279, R285). -/
def execKeyBlockReceive (t : Nat) (lane : Nat) (b : KeyBlock) (crcOk : Bool) (s : State) : Answer :=
  s.upd t (lane < 6 && b.arm < 8 && b.seg < 16) fun _ d =>
    let p := lane / 2
    let d := if crcOk then d.goodBlocks lane 3 else d.badBlock lane .crc
    let a := b.arm
    let st := d.armSt a
    let serves := d.arms.contains a
    let me := d.segIn a
    let n := d.nSeg a
    let onTime := crcOk && b.cycLo == d.cyc.k % 65536
    -- forwarding
    let d :=
      if p = 2 then d
      else
        let dist := if p = 1 then (me + n - b.seg) % n else (b.seg + n - me) % n
        let far := if p = 1 then (d.reachOf n b.seg).1 else (d.reachOf n b.seg).2
        let o := 1 - p
        let d := if serves && b.seg != me && decide (0 < dist) && decide (dist < far) then d.give o (.key b (!crcOk)) else d
        if serves && onTime && bitN st.twinWants b.seg then d.give 2 (.key b false) else d
    if !serves then d
    else if !onTime then d.setArm a { d.armSt a with late := (d.armSt a).late + 1 }
    else if p = 2 then
      if (d.armSt a).gathered then d.setArm a { d.armSt a with late := (d.armSt a).late + 1 }
      else d.setArm a { d.armSt a with twinBlocks := (d.armSt a).twinBlocks.set b.seg b }
    else if (d.armSt a).gathered || decide (tKxPs n < (d.clk - d.cyc.tk) * 1600) then
      d.setArm a { d.armSt a with late := (d.armSt a).late + 1 }
    else (d.takeBlock a b true).gatherAll a

/-- A WANT block: the named KEY units held now are relayed over T, and later ones as they arrive (R285). -/
def execWantReceive (t : Nat) (lane : Nat) (masks : List Nat) (s : State) : Answer :=
  s.upd t ((lane == 4 || lane == 5) && masks.length ≤ 3) fun _ d =>
    let d := d.goodBlocks lane 1
    (List.range 3).foldl (fun d g =>
      let a := d.pni P.mod_pg_arm g
      let m := masks.getD g 0
      if a < 6 && m != 0 then
        let st := d.armSt a
        let d := d.setArm a { st with twinWants := maskOf 16 fun i => bitN m i || bitN st.twinWants i }
        (List.range 16).foldl (fun d j => match st.blocks.find j with
          | some b => if bitN m j && bitN st.fresh j then d.give 2 (.key b false) else d
          | none => d) d
      else d) d

/-- `ps` after t_k (Table 02-6). -/
def Dev.sinceCycle (d : Dev) (ps : Nat) : Bool := d.cyc.run && decide (ps ≤ (d.clk - d.cyc.tk) * 1600)

/-- At t_kx the blocks missing from the own ring are taken from the twin's copies (R54). -/
def Dev.fromTwin (d : Dev) (a : Nat) : Dev :=
  (d.armSt a).twinBlocks.foldl (fun d b => if ((d.armSt a).blocks.find b.1).isSome then d else d.takeBlock a b.2 true) d

def execKeyExchangeDeadline (t : Nat) (arm : Nat) (s : State) : Answer :=
  s.upd t (arm < 6) fun _ d => 
    if d.arms.contains arm && d.sinceCycle (tKxPs (d.nSeg arm)) && !(d.armSt arm).gathered then (d.fromTwin arm).gatherAll arm else d

/-- At t_kx + 0.15 µs the blocks count as gathered (R54, R55, R237). -/
def execTwinFillDeadline (t : Nat) (arm : Nat) (s : State) : Answer :=
  s.upd t (arm < 6) fun _ d =>
    if d.arms.contains arm && d.sinceCycle (tKxPs (d.nSeg arm) + 150000) && !(d.armSt arm).gathered then
      let d := d.fromTwin arm
      let st := d.armSt arm
      let unmet := (List.range 16).any fun j => bitN st.wants j && (st.blocks.find j).isNone
      let d := if unmet then d.raise Ev.FAB_WANT_UNMET (cellArg arm (d.segIn arm) 0) else d
      d.gatherArm arm
    else d

/-- Redundancy of an arm (R80). -/
def Dev.redundancy (d : Dev) (a nUse nFb : Nat) : Dev :=
  let st := d.armSt a
  let fb := d.pv P.mod_cell_mix != 0
  let lost := decide (nUse < d.pn P.mod_n_min) || (fb && decide (nFb < d.pn P.mod_n_fb_min))
  let warn := decide (nUse ≤ d.pn P.mod_n_min + d.pn P.mod_red_warn) || (fb && decide (nFb ≤ d.pn P.mod_n_fb_min + d.pn P.mod_red_warn))
  let arg := cellArg a (d.segIn a) 0
  let d := d.setArm a { st with lossUp := lost, warned := warn }
  let d := if lost && !st.lossUp then d.raise Ev.MOD_REDUNDANCY_LOST arg else d
  let d := if lost then d.blockCause 1 else if d.arms.any (fun x => (d.armSt x).lossUp) then d else d.clearCause 1
  if warn && !st.warned then d.raise Ev.MOD_REDUNDANCY_WARN arg else d

/-- No reference covers the cycle: at the start of selection, or so far (R23, R40, R57, R246). Before the first record in
DE-ENERGISED none is expected (DEDUCED, log entry 45). -/
def Dev.refMissing (d : Dev) (a : Nat) : Bool :=
  let st := d.armSt a
  (if st.gathered then st.record.isNone else (d.recordNow a).isNone) && !(st.refs.isEmpty && d.mode.conv == .deEnergised)

/-- The count of an arm in this cycle (R58). -/
def Dev.armCount (d : Dev) (a : Nat) : Count :=
  let st := d.armSt a
  let sum := fun (f : KeyBlock → Nat) => st.blocks.foldl (fun n b => n + f b.2) 0
  countOf (d.pv P.mod_cell_mix == 0) (d.pv P.mod_frac_mode == 0) (sum (·.nUse)) (sum (·.nFb)) (sum (·.vSum)) (st.uRef.getD 0)

/-- COUNT: totals, insertion count and usable counts of an arm (R58, R80). Without a reference there is no selection (R23): the
insertion count stands. -/
def execCountTask (t : Nat) (arm : Nat) (s : State) : Answer :=
  s.upd t (arm < 6) fun _ d =>
    if !d.critRuns arm (.count arm) || !(d.armSt arm).gathered then d
    else
      let st := d.armSt arm
      let sum := fun (f : KeyBlock → Nat) => st.blocks.foldl (fun n b => n + f b.2) 0
      let c := d.armCount arm
      let u := st.uRef.isSome
      let st := { st with nUse := c.nUse, nFb := c.nFb, vSum := sum (·.vSum), sat := c.sat && u, sats := st.sats + bit01 (c.sat && u) }
      let d := d.setArm arm (if u then { st with mq := c.mq, n := c.n, f := c.f, neg := c.neg } else st)
      let d := if c.sat && u then d.raiseLim Ev.MOD_SATURATED arm (1000 * d.tModTicks) (cellArg arm (d.segIn arm) 0) else d
      let d := d.redundancy arm c.nUse c.nFb
      d.did (.count arm)

/-- RANK4: the ranks of a group's cells (R59, R236). -/
def execRank4Task (t : Nat) (g : Nat) (s : State) : Answer :=
  s.upd t (g < 12) fun _ d =>
    match d.groups[g]? with
    | none => d
    | some (a, ps) =>
      let st := d.armSt a
      if !d.critRuns a (.rank4 g) || !st.gathered then d
      else
        let c := d.armCount a
        let cands := candidates st.blocks c.neg
        let charging := st.dir != c.neg
        let seg := d.segIn a
        let ranks := ps.map fun p => match cands.find? (fun x => x.2.1 == seg && x.2.2 == p) with
          | some x => rankIn cands charging x + 1
          | none => 0
        (d.putSlot (.rank4 g) ranks).did (.rank4 g)

/-- Whether every listed CRIT task of an arm is complete; BUILD4 of an arm without its reference is not asked, nor ARMREC but in the
last cycle of a control cycle (R236, R246). -/
def Dev.critDone (d : Dev) (a : Nat) : Bool :=
  let last := decide ((d.cyc.k + 1) % max 1 (d.pn P.ctl_n_ctl) = 0)
  d.tmpl.all fun e => d.cyc.done.contains e.task || (match e.task with
    | .pk4 g | .rank4 g => d.groupArm g != a
    | .build4 g => d.groupArm g != a || d.refMissing a
    | .kb b | .count b => b != a
    | .armrec b => b != a || !last
    | _ => true)

/-- DIGEST is ready after the last CRIT task (R236). -/
def Dev.digestReady (d : Dev) : Dev := if d.arms.all d.critDone then d.place .digest else d

/-- BUILD4: the command frames of a group (R60 to R67), after COUNT and RANK4. -/
def execBuild4Task (t : Nat) (g : Nat) (s : State) : Answer :=
  s.upd t (g < 12) fun s d =>
    match d.groups[g]? with
    | none => d
    | some (a, ps) =>
      if !d.critRuns a (.build4 g) || d.refMissing a then d
      else ((ps.foldl (fun d p => d.build s.tx p) d).did (.build4 g)).digestReady

/-- ARMREC: in the last cycle of a control cycle the arm lead's measurement record (R194). -/
def execArmrecTask (t : Nat) (arm : Nat) (s : State) : Answer :=
  s.upd t (arm < 6) fun _ d =>
    let st := d.armSt arm
    let n := max 1 (d.pn P.ctl_n_ctl)
    if !d.critRuns arm (.armrec arm) || !st.gathered || (d.cyc.k + 1) % n ≠ 0 then d
    else
      let i? := d.armCurrent arm (d.tOf (d.cyc.k + 1))
      let (d, i) : Dev × Int := match i? with
        | some i => (d, clampInt (-2147483648) 2147483647 (milli i))
        | none => (d.drawn, (d.freeVal 32).toInt)
      let sum := fun (f : KeyBlock → Nat) => st.blocks.foldl (fun n b => n + f b.2) 0
      let src := d.pn P.mod_iarm_src
      let ok := i?.isSome && (match d.cyc.snapMeas.find (96 + src) with
        | some x => x.ok
        | none => false)
      let r : ArmMeas := ⟨d.cyc.k, arm, ok, (d.armCount arm).sat && st.uRef.isSome, st.warned, i, sum (·.vSum) / 10, sum (·.nUse), sum (·.nFb), st.bandNext⟩
      let d := if d.convLead then { d with ctl := { d.ctl with meas := d.ctl.meas.set arm r } } else d
      let d := if !d.fullTraffic || d.convLead then d
        else match d.armRecPort with
          | some p => d.give p (.armRec r)
          | none => d
      let d := { d with cyc := { d.cyc with sentRec := d.cyc.sentRec ++ armMeasBytes r } }
      (d.did (.armrec arm)).digestReady

/-- BAND: the hysteresis band on the arm lead (R49). -/
def Dev.bandStep (d : Dev) (a : Nat) (s : Option Nat) : Dev :=
  let st := d.armSt a
  let sw := match s with
    | some x => max st.sWin x
    | none => st.sWin
  let n := st.nWin + 1
  if n < st.winLen then d.setArm a { st with sWin := sw, nWin := n }
  else
    let b := st.band
    let b := if st.winLim < sw then max st.winMin (b - b / 4)
      else if sw < st.winLim - st.winLim / 4 then min st.winMax (b + max (b / 8) 50)
      else b
    let lo := d.pn P.mod_band_min_mv
    let hi := d.pn P.mod_band_max_mv
    let b := if st.bandSet then max lo (min hi (d.pn P.mod_band_mv)) else b
    d.setArm a { st with sWin := 0, nWin := 0, band := b, bandSet := false, winLen := d.pn P.mod_band_win, winMin := lo,
                         winMax := hi, winLim := d.pn P.mod_spread_lim_mv }

/-- The spread over the blocks of a cycle, mV (R49). -/
def armSpread (st : ArmState) : Nat :=
  let used := st.blocks.filter fun b => decide (0 < b.2.nUse)
  let hi := used.foldl (fun m b => max m b.2.vMax) 0
  let lo := used.foldl (fun m b => min m b.2.vMin) 0xFFFF
  if used.isEmpty then 0 else 100 * (hi - lo)

/-- A LAG task has until t_(k+2): the one of the last cycle runs first when it is still to run. -/
def execBandTask (t : Nat) (arm : Nat) (s : State) : Answer :=
  s.upd t (arm < 6) fun _ d =>
    let st := d.armSt arm
    let run := fun (d : Dev) (x : Nat) => if d.pv P.mod_band_mode = 0 then d else d.bandStep arm (some x)
    if !d.leadsArm arm then d
    else match st.lateSpread with
      | some x =>
        let d := run (d.setArm arm { st with lateSpread := none }) x
        ({ d with cyc := { d.cyc with done1 := .band arm :: d.cyc.done1 } }).ran (.band arm)
      | none => if !st.gathered || !d.listed (.band arm) || d.cyc.done.contains (.band arm) then d else (run d (armSpread st)).did (.band arm)

/-! ## Delays and capacitances (R45, R46, R69 to R72) -/

/-- A list of four with element `i` replaced, from a list that may be shorter. -/
def set4 {α : Type} (dflt : α) (l : List α) (i : Nat) (v : α) : List α := (List.range 4).map fun j => if j = i then v else l.getD j dflt

/-- A class estimate set to `v`, clamped: EV_MOD_DLY_LIMIT once per clamp episode (R70). -/
def Dev.setDelay (d : Dev) (p cls : Nat) (v : Int) : Dev :=
  let c := d.cell p
  let w := clampInt 0 d.gTicks v
  let cl := decide (v ≠ w)
  let d' := d.setCell p { c with dly := set4 ((d.gTicks / 2 : Nat) : Int) c.dly cls w, dlyRej := set4 0 c.dlyRej cls 0,
                                 dlyClamp := set4 false c.dlyClamp cls cl }
  if cl && !c.dlyClamp.getD cls false then d'.raise Ev.MOD_DLY_LIMIT (d.cellEv p) else d'

/-- The reference delay of a class is stored where none is held, 10 s after the first command other than BLK, and with the
updates that R72 asks for, but not from a clamped estimate. -/
def Dev.storeDlyRef (d : Dev) (p cls : Nat) : Dev :=
  let c := d.cell p
  let old : Bool := match c.firstCmd with
    | some t0 => decide (t0 + (ticksOfS 10 : Nat) ≤ d.tOf d.cyc.k)
    | none => false
  if (d.par.dlyRef.find (4 * p + cls)).isNone && old && !c.dlyClamp.getD cls false
      && decide (2 ^ (d.pn P.mod_dly_shift + 4) ≤ c.dlyUpd.getD cls 0) then
    { d with par := { d.par with dlyRef := d.par.dlyRef.set (4 * p + cls) (cellDelay c d.gTicks cls) } }
  else d

/-- An edge measured for a commanded transition (R69, R70, R72). -/
def Dev.dlyUpdate (d : Dev) (p cls : Nat) (dm : Int) : Dev :=
  let c := d.cell p
  let cur := cellDelay c d.gTicks cls
  let lim : Int := (ticksOfNs (d.pn P.mod_dly_reject_ns) : Nat)
  if lim < (dm - cur).natAbs then
    let r := c.dlyRej.getD cls 0 + 1
    let d := d.raise Ev.MOD_DLY_REJECT (d.cellEv p)
    if 16 ≤ r then d.setDelay p cls dm else d.setCell p { c with dlyRej := set4 0 c.dlyRej cls r }
  else
    let d := d.setDelay p cls (cur + (dm - cur) / 2 ^ d.pn P.mod_dly_shift)
    let c := d.cell p
    (d.setCell p { c with dlyUpd := set4 0 c.dlyUpd cls (c.dlyUpd.getD cls 0 + 1) }).storeDlyRef p cls

/-- A switching failure; three in a row fail the cell (R71). -/
def Dev.switchFail (d : Dev) (p : Nat) : Dev :=
  let c := d.cell p
  if bitN d.mode.causes 0 then d
  else
  let d := (d.setCell p { c with swFail := c.swFail + 1 }).raise Ev.MOD_SWITCH_FAIL (d.cellEv p)
  if 3 ≤ c.swFail + 1 then d.cellFail p else d

/-- An edge without a commanded transition; three within 1 s fail the cell (R71). -/
def Dev.unexpectedEdge (d : Dev) (p : Nat) (t : Int) : Dev :=
  let c := d.cell p
  if bitN d.mode.causes 0 then d
  else
  let ts := t :: c.unexp.filter fun x => decide (t < x + 625000000)
  let d := (d.setCell p { c with unexp := ts }).raise Ev.MOD_UNEXPECTED_EDGE (d.cellEv p)
  if 3 ≤ ts.length then d.cellFail p else d

def isDirect (a b : CellCmd) : Bool := polarity a != 0 && polarity b != 0

/-- The window of a commanded transition overlaps a time in which the edge branch was suspended (R71, R161). -/
def Dev.transSuspended (d : Dev) (p : Nat) (x : Int × CellCmd × CellCmd) : Bool :=
  overlaps (d.chain (48 + p)).susp (x.1 * 8 / 5) ((x.1 + (ticksOfNs (d.pn P.mod_edge_timeout_ns) : Nat)) * 8 / 5)

/-- One measured edge of a cell: attributed to the commanded transition whose window holds it (R69, R71). One that came while
the arm current had no value updates no estimate (DESIGN CHOICE, log entry 119). -/
def Dev.takeEdge (d : Dev) (p : Nat) (e : EdgeRec) : Dev :=
  let c := d.cell p
  let wait : Int := (ticksOfNs (d.pn P.mod_edge_timeout_ns) : Nat)
  let hit := fun (x : Int × CellCmd × CellCmd) => decide (x.1 ≤ e.t) && decide (e.t ≤ x.1 + wait)
  if c.trans.any (fun x => hit x && isDirect x.2.1 x.2.2) then d
  else match c.trans.find? (fun x => hit x && (polarity x.2.2 != 0) == e.entry) with
    | some x =>
      let i? := d.armCurrent (d.portArm p) e.t
      let d := d.setCell p { c with trans := c.trans.filter (· != x), swFail := if d.transSuspended p x then c.swFail else 0 }
      match i? with
      | some i =>
        if f32lt (f32abs i) (f32ofInt (d.pv P.mod_dly_imin_a)) then d
        else (d.setCell p { d.cell p with lastDm := some (e.t - x.1) }).dlyUpdate p (dlyClass x.2.2 (!f32lt i f0)) (e.t - x.1)
      | none => d
    | none => if overlaps (d.chain (48 + p)).susp (e.t * 8 / 5) (e.t * 8 / 5) then d else d.unexpectedEdge p e.t

/-- The transitions whose window has been released without an edge, as the snapshot of t_k shows (R71, R161, R239). -/
def Dev.judgeTrans (d : Dev) (p : Nat) : Dev :=
  let c := d.cell p
  let wait : Int := (ticksOfNs (d.pn P.mod_edge_timeout_ns) : Nat)
  -- the newest CT output bounds what has been released
  let seen : Int := ((d.cyc.snapMeas.find (48 + p)).map fun o => ((o.rel : Int) / 2 - 4) * 625).getD (-1)
  let late := fun (x : Int × CellCmd × CellCmd) => decide (x.1 + wait ≤ seen)
  let d := d.setCell p { c with trans := c.trans.filter fun x => !late x }
  (c.trans.filter late).foldl (fun (d : Dev) x =>
    if isDirect x.2.1 x.2.2 || d.transSuspended p x || polarity x.2.1 == polarity x.2.2 then d else d.switchFail p) d

/-- The edges of one cell that the snapshot holds, and what they end (R69 to R72). -/
def Dev.dlyCell (d : Dev) (p : Nat) : Dev :=
  let ct := d.chain (48 + p)
  let es := ct.edges.filter fun e => d.snapHolds e.rel
  let d := d.setChain (48 + p) { ct with edges := ct.edges.filter fun e => !d.snapHolds e.rel }
  if ct.perm then d.setCell p { d.cell p with trans := [] } else (es.foldl (fun (d : Dev) e => d.takeEdge p e) d).judgeTrans p

/-- DLY4: the edges of a group since the last run (R69 to R72). A CT stream permanently faulty freezes them (R165). -/
def execDly4Task (t : Nat) (g : Nat) (s : State) : Answer :=
  s.upd t (g < 12) fun _ d =>
    if d.carryRuns (.dly4 g) then ((d.groupCells g).foldl Dev.dlyCell d).carryDid (.dly4 g) else d

/-- The charge of a cell between two instants: the polarity of its executed schedule times the arm current, which is taken at
the ends of each span of the schedule (R45; DEDUCED, log entry 46). -/
def Dev.capCharge (d : Dev) (p : Nat) (a b : Int) : Option F32 :=
  (spansIn (d.cell p).sched a b).foldl (fun q x =>
    if polarity x.2.2 = 0 then q
    else match q, d.armCurrent (d.portArm p) x.1, d.armCurrent (d.portArm p) x.2.1 with
      | some q, some i, some j =>
        some (f32add q (f32mul (f32mul (f32mul (f32ofInt (polarity x.2.2)) fHalf) (f32add i j)) (secs (x.2.1 - x.1))))
      | _, _, _ => none) (some f0)

/-- c.cap / c_nom in percent, and EV_MOD_HEALTH_WARN once when it falls below mod.cap_warn_pct (R46). -/
def Dev.capPct (d : Dev) (p : Nat) : F32 :=
  f32mul (f32div (d.capOf (d.cell p)) (f32ofRat (d.pn P.mod_cap_nom_uf) 1000000)) (f32ofInt 100)
def Dev.judgeCap (d : Dev) (p : Nat) : Dev :=
  let c := d.cell p
  if f32lt (d.capPct p) (f32ofInt (d.pv P.mod_cap_warn_pct)) && !c.capWarned then
    (d.setCell p { c with capWarned := true }).raise Ev.MOD_HEALTH_WARN (d.cellEv p)
  else d

/-- A completed insertion with its charge and its voltage change (R45). -/
def Dev.capUpdate (d : Dev) (p : Nat) (o : CapRun) (dq dv : F32) : Dev :=
  let c := d.cell p
  let nom := f32ofRat (d.pn P.mod_cap_nom_uf) 1000000
  if f32lt (f32abs dv) (f32ofRat o.dvMin 1000) then d
  else
    let cw := f32div dq dv
    if f32le (f32mul fHalf nom) cw && f32le cw (f32mul (f32ofRat 3 2) nom) then
      (d.setCell p { c with cap := f32add (d.capOf c) (f32div (f32sub cw (d.capOf c)) (f32ofInt (2 ^ o.shift))) }).judgeCap p
    else d.setCell p { c with capReject := c.capReject + 1 }

/-- A transition to `dest` between the samples `b` and `s`, which the charge `q` lies between: it ends the interval under way,
with `s` the sample after its end, and a passage into POS or NEG opens one, with `b` the sample before its start (R45). -/
def Dev.capEdge (p : Nat) (b s : CapSample) (q : Option F32) (d : Dev) (dest : CellCmd) : Dev :=
  let c := d.cell p
  let next := if polarity dest != 0 && b.ok then some (CapRun.mk dest b.v f0 (d.pn P.mod_cap_alpha_shift) (d.pn P.mod_cap_dv_min_mv)) else none
  let d' := d.setCell p { c with open_ := next }
  match c.open_, q with
  | some o, some q => if s.ok then d'.capUpdate p o (f32add o.dq q) (f32sub s.v o.v0) else d'
  | _, _ => d'

/-- The next CV output: the transitions of the executed schedule since the one before it, and the charge of the interval under
way. A sample that is not ok, or an arm current without a value, discards the interval (R45, DEDUCED, log entry 46). -/
def Dev.capStep (p : Nat) (d : Dev) (s : CapSample) : Dev :=
  match (d.cell p).capLast with
  | none => d.setCell p { d.cell p with capLast := some s }
  | some b =>
    let q := d.capCharge p b.t s.t
    let dests := ((d.cell p).sched.filter fun x => decide (b.t < x.1) && decide (x.1 ≤ s.t)).reverse.map (·.2)
    let d := dests.foldl (Dev.capEdge p b s q) d
    let c := d.cell p
    let under := match c.open_, q with
      | some o, some q => if s.ok then some { o with dq := f32add o.dq q } else none
      | _, _ => none
    d.setCell p { c with capLast := some s, open_ := under }

/-- CAP4 for one cell: the CV outputs of the snapshot since the last run (R45, R239). -/
def Dev.capCell (d : Dev) (p : Nat) : Dev :=
  let q := (d.cell p).capQ
  let d' := (q.filter fun x => d.snapHolds x.rel).foldl (Dev.capStep p) d
  d'.setCell p { d'.cell p with capQ := q.filter fun x => !d.snapHolds x.rel }

def execCap4Task (t : Nat) (g : Nat) (s : State) : Answer :=
  s.upd t (g < 12) fun _ d =>
    if d.carryRuns (.cap4 g) then ((d.groupCells g).foldl Dev.capCell d).carryDid (.cap4 g) else d

/-! ## References and measurement records on the fabric (R286, R287) -/

/-- The record of arm `a` in a block. -/
def refRecord (b : RefBlock) (a : Nat) : RefRec :=
  RefRec.mk b.c0 b.nc a (b.cmds.getD a 0) (b.vals.getD a (0, 0)).1 (b.vals.getD a (0, 0)).2

/-- The records of a block for the arms this device serves. -/
def Dev.storeRefs (d : Dev) (twin : Bool) (b : RefBlock) : Dev :=
  (List.range 6).foldl (fun d a =>
    if bitN b.present a then d.storeRef twin (refRecord b a) else d) d

/-- The ports of the ring and the spine that a REF_REC block leaves on: from the converter lead on all of them; one that came
by port `p` passes on (R19, R287). At an end of an arm ring it crosses between the spine and the link between SEG_ID 0 and the
highest SEG_ID; the arm lead relays it in both directions, and where the lead is at neither end, both ends relay it inward
(DESIGN CHOICE, log entry 111). -/
def Dev.refPorts (d : Dev) (by_ : Option Nat) : List Nat :=
  match by_ with
  | none => if d.armRing then [0, 1, 3] else [0, 1]
  | some p =>
    let n := d.nSeg d.firstArm
    let seg := d.boot.segId
    let lead := d.pni P.mode_arm_lead_seg d.firstArm
    if !d.armRing then (if p < 2 then [1 - p] else [])
    else if d.leadsArm d.firstArm then (if (seg = 0 ∨ seg + 1 = n) ∧ p ≠ 3 then [0, 1, 3] else [0, 1])
    else if seg ≠ 0 ∧ seg + 1 ≠ n then (if p < 2 then [1 - p] else [])
    else
      let cross := if seg = 0 then 1 else 0
      let inward := decide (lead ≠ 0 ∧ lead + 1 ≠ n ∧ p ≠ 1 - cross)
      (if p = 3 then [cross] else if p = cross then [3] else [cross, 3]) ++ (if inward then [1 - cross] else [])

/-- A REF_REC block is relayed once along the ring and the spine, and over T to the twin (R287). -/
def Dev.relayRef (d : Dev) (b : RefBlock) (p : Nat) : Dev := (d.refPorts (some p) ++ [2]).foldl (fun (d : Dev) q => d.give q (.refRec b)) d

/-- A block not relayed before. -/
def Dev.newRef (d : Dev) (b : RefBlock) (p : Nat) : Dev :=
  let seen := (b.c0 :: d.ctl.seenRef).eraseDups.take 8
  if d.ctl.seenRef.contains b.c0 then d else { d with ctl := { d.ctl with seenRef := seen } }.relayRef b p

/-- REF_REC: its records are stored and it passes on (R192, R193, R287). -/
def execRefRecReceive (t : Nat) (lane : Nat) (b : RefBlock) (s : State) : Answer :=
  s.upd t (lane < 8 && b.present < 64) fun _ d =>
    let d := (d.goodBlocks lane 1).storeRefs (lane / 2 == 2) b
    if lane / 2 = 2 then d else d.newRef b (lane / 2)

/-- ARM_REC goes on toward the converter lead of its letter, or is taken by it (R287). -/
def execArmRecReceive (t : Nat) (lane : Nat) (r : ArmMeas) (s : State) : Answer :=
  s.upd t (lane < 8 && r.arm < 6 && lane / 2 != 2) fun _ d =>
    let d := d.goodBlocks lane 1
    if d.convLead then { d with ctl := { d.ctl with meas := d.ctl.meas.set r.arm r } }
    else match d.armRecPort with
      | some p => if p = lane / 2 then d else d.give p (.armRec r)
      | none => d

end Sys2Proof.Machine
end

