-- ==== Sys2Proof/Machine/Host.lean ====
section
/-!
DEFINITION. Machine/Host.lean: queue pairs, descriptors and completions, sessions over TLS, the fabric tunnel
(R380 to R402).
-/
namespace Sys2Proof.Machine

open Sys2Proof

def Dev.qp (d : Dev) (n : Nat) : Qp := d.host.qps.get {} n
def Dev.setQp (d : Dev) (n : Nat) (q : Qp) : Dev := { d with host := { d.host with qps := d.host.qps.set n q } }

/-! Fields of CFG and SIZE (Table 12-4). -/
def Qp.enabled (q : Qp) : Bool := bitN q.cfg.toNat 0
def Qp.transport (q : Qp) : Nat := fieldN q.cfg.toNat 1 2
def Qp.vector (q : Qp) : Nat := fieldN q.cfg.toNat 3 4
def Qp.priority (q : Qp) : Nat := fieldN q.cfg.toNat 7 2
def Qp.ceiling (q : Qp) : Level := fieldN q.cfg.toNat 9 2
def Qp.sqSize (q : Qp) : Nat := fieldN q.size.toNat 0 12 + 1
def Qp.cqSize (q : Qp) : Nat := fieldN q.size.toNat 16 12 + 1

/-- The privilege level of the queue pair's commands (R402): a session has the lower of the ceiling and its role. -/
def Qp.privilege (q : Qp) : Level := if q.session = none then q.ceiling else min q.ceiling q.level

/-- Commands in flight from a queue pair. -/
def Dev.inflightOf (d : Dev) (n : Nat) : List Inflight := d.host.inflight.filter fun f => f.gw == none && f.qp == n

/-- STATUS.idle: no command in flight, here or through the tunnel. -/
def Dev.qpIdle (d : Dev) (n : Nat) : Bool := (d.inflightOf n).isEmpty && !(d.host.tunnelled.any fun f => f.qp == n)

/-- The device serves its mailboxes: operational, or in PCIe boot, and not after PWRFAIL_L (R442, R443, R471). -/
def Dev.serves (d : Dev) : Bool := (d.boot.operational || d.boot.pcieBoot) && !d.boot.pwrfail

/-- The error state of a queue pair (R394). -/
def Dev.qpError (d : Dev) (n cause : Nat) : Dev :=
  (((d.setQp n { d.qp n with error := true, errCause := cause }).raise Ev.MBX_QP_ERROR (n + 8 * cause))).emit (.irq 9)

/-! ## Descriptors (R395 to R399) -/

/-- The commands whose data the tunnel carries as BULK units (R388). -/
def bulkCommand (op : Nat) : Bool := [0x00D3, 0x0100, 0x0106, 0x0004].contains op

/-- The checks of a descriptor in their order: opcode, privilege level, dest, arguments (R399). `none` means that it
may start here. -/
def Dev.descCheck (d : Dev) (level : Level) (x : Desc) (tunnel : Bool) : Option Nat :=
  match opRow? x.opcode with
  | none => some Sc.BAD_OPCODE
  | some r =>
    if level < r.level then some Sc.DENIED
    else if !tunnel && x.dest != d.addr && (d.pv P.sys_gateway != 1 || (d.routePort x.dest).isNone) then some Sc.NO_ROUTE
    else if x.rsvd ≠ 0 ∨ 16777216 < x.bufLen then some Sc.BAD_ARG
    else if x.dest ≠ d.addr ∧ !bulkCommand x.opcode ∧ ((x.dout ∧ 65456 < x.bufLen) ∨ (x.din ∧ 65488 < x.bufLen)) then some Sc.BAD_ARG
    else none

/-- The kind of the BULK units that carry a command's data (R388). -/
def bulkKind (op : Nat) : Nat := if op = 0x00D3 then 0 else if op = 0x0100 then 1 else if op = 0x0106 then 2 else 3

/-- A descriptor and its data out to another device: one MESSAGE unit of kind MBX, the data of some commands as a BULK
unit (R387, R388). -/
def Dev.tunnelTo (d : Dev) (dest qp : Nat) (level : Level) (x : Desc) : Dev :=
  if bulkCommand x.opcode && !x.data.isEmpty then
    (d.sendUnit false 0 (some dest) 80 (.mbxCommand qp level { x with data := [] })).sendUnit true (bulkKind x.opcode) (some dest)
      (16 + x.data.length) (.bytes x.data)
  else d.sendUnit false 0 (some dest) (80 + x.data.length) (.mbxCommand qp level x)

/-- A completion and its data in back to the gateway. -/
def Dev.tunnelBack (d : Dev) (gw qp tag op : Nat) (r : CmdResult) : Dev :=
  if bulkCommand op && !r.data.isEmpty then
    (d.sendUnit true (bulkKind op) (some gw) (16 + r.data.length) (.bytes r.data)).sendUnit false 0 (some gw) 48 (.mbxReply qp tag { r with data := [] })
  else d.sendUnit false 0 (some gw) (48 + r.data.length) (.mbxReply qp tag r)

/-- A command joins those in flight. -/
def Dev.addInflight (d : Dev) (f : Inflight) : Dev := { d with host := { d.host with inflight := d.host.inflight ++ [f] } }

/-- The class-I slots: an opcode of class I may take any of the 256, another only the first 240 (R396). -/
def Dev.slotFor (d : Dev) (op : Nat) : Bool :=
  let i : Bool := match opRow? op with
    | some r => r.cls == .i
    | none => true
  decide (d.host.inflight.length < if i then 256 else 240)

/-- The completion bound of a command, ns (Tables 12-7 and 12-9). REC_READ has 10 ms more for each MB of its buffer (DEDUCED, log entry
88). -/
def Dev.boundNs (d : Dev) (x : Desc) : Nat :=
  let ms : Nat := match x.opcode with
    | 0x0004 | 0x0101 | 0x0106 => 1000
    | 0x0013 | 0x0102 => 2000
    | 0x0022 => 500
    | 0x0070 | 0x0090 => 20
    | 0x0083 => 10000
    | 0x00A0 => 10
    | 0x00B0 => 1
    | 0x00D3 => 10 + 10 * ceilDiv x.bufLen 1000000
    | _ => 100
  match (opRow? x.opcode).map (fun (r : OpRow) => r.cls) with
  | some .c => 3 * d.pn P.mod_t_mod_ns + 50000
  | some .p => (3 * d.pn P.ctl_n_ctl + 3) * d.pn P.mod_t_mod_ns + 50000
  | some .l => ms * 1000000
  | _ => 50000

/-- The instant at which a command tunnelled now is given up (R389). -/
def Dev.tunnelDue (d : Dev) (x : Desc) : Nat := d.clk + ticksOfNs (d.boundNs x) + ticksOfMs (2 + d.pn P.sys_tunnel_to_ms)

/-- A fetched descriptor of queue pair `n` starts: it is answered at once after a failed check or with a tag in use
(R397), it is forwarded to another device (R387), or it is in flight. -/
def Dev.acceptDesc (d : Dev) (n : Nat) (level : Level) (x : Desc) : Dev :=
  let f : Inflight := { gw := none, qp := n, tag := x.tag, opcode := x.opcode, fenced := x.fence, args := x.args, din := x.din, buf := x.bufAddr }
  if (d.inflightOf n).any (fun g => g.tag == x.tag) || d.host.tunnelled.any (fun g => g.qp == n && g.tag == x.tag) then
    d.addInflight { f with result := some (stRes Sc.TAG_IN_USE) }
  else match d.descCheck level x false with
    | some st => d.addInflight { f with result := some (stRes st) }
    | none =>
      if x.dest = d.addr then d.addInflight f
      else
        let f : Tunnelled := { qp := n, tag := x.tag, dest := x.dest, opcode := x.opcode, din := x.din, buf := x.bufAddr, due := d.tunnelDue x }
        ({ d with host := { d.host with tunnelled := d.host.tunnelled ++ [f] } }).tunnelTo x.dest n level x

/-- A descriptor that would start a command is held when only the class-I slots are free (R396). -/
def Dev.takeDesc (d : Dev) (n : Nat) (x : Desc) : Dev :=
  let level := (d.qp n).privilege
  if d.slotFor x.opcode then d.acceptDesc n level x else d.setQp n { d.qp n with held := some (x, level) }

/-- A tunnelled descriptor starts at its destination, under the level of the gateway's queue pair (R387, R397). -/
def Dev.acceptTunnelled (d : Dev) (gw qp : Nat) (level : Level) (x : Desc) : Dev :=
  let f : Inflight := { gw := some gw, qp := qp, tag := x.tag, opcode := x.opcode, args := x.args, din := x.din }
  if d.host.inflight.any (fun g => g.gw == some gw && g.qp == qp && g.tag == x.tag) then
    d.addInflight { f with result := some (stRes Sc.TAG_IN_USE) }
  else match d.descCheck level x true with
    | some st => d.addInflight { f with result := some (stRes st) }
    | none => d.addInflight f

/-- A tunnelled descriptor starts, or waits where no slot is free for it: only the tunnel's own queue pairs are held back by R396
(DESIGN CHOICE, log entry 136). -/
def Dev.takeTunnelled (d : Dev) (x : Nat × Nat × Level × Desc) : Dev :=
  if d.slotFor x.2.2.2.opcode then d.acceptTunnelled x.1 x.2.1 x.2.2.1 x.2.2.2
  else { d with host := { d.host with tunHeld := d.host.tunHeld ++ [x] } }

/-- Held descriptors start when a general slot frees. -/
def Dev.releaseHeld (d : Dev) : Dev :=
  let d := (List.range 8).foldl (fun d n => match (d.qp n).held with
    | some (x, level) => if d.slotFor x.opcode then (d.setQp n { d.qp n with held := none }).acceptDesc n level x else d
    | none => d) d
  let wait := d.host.tunHeld
  wait.foldl Dev.takeTunnelled { d with host := { d.host with tunHeld := [] } }

/-- A PCIe queue pair that has descriptors to fetch and may be fetched from. -/
def Dev.fetchable (d : Dev) (n : Nat) : Bool :=
  let q := d.qp n
  q.enabled && q.transport == 1 && !q.error && q.held.isNone && q.sqHead != q.sqTail
    && d.mode.power != .rest && !(d.mode.doms.get {} 9).faulty

/-- The queue pair whose turn it is: of the highest fetch priority, up to 8 descriptors per turn, then round robin
(R396). -/
def Dev.fetchTurn (d : Dev) : Option Nat :=
  let qs := (List.range 8).filter d.fetchable
  let top := qs.foldl (fun m n => max m (d.qp n).priority) 0
  let qs := qs.filter fun n => (d.qp n).priority == top
  if qs.contains d.host.rr && decide (d.host.rrN < 8) then some d.host.rr
  else match qs.find? (fun n => d.host.rr < n) with
    | some n => some n
    | none => qs.head?

/-- A descriptor is fetched over PCIe in the queue pair's turn (R392, R396). While 1,024 tunnelled commands are
outstanding none is fetched for another device (R389). -/
def execDescriptorFetch (t : Nat) (qp : Nat) (x : Desc) (dmaOk : Bool) (s : State) : Answer :=
  s.upd t (qp < 8) fun _ d =>
    if !d.serves || d.fetchTurn != some qp || decide (256 ≤ d.host.inflight.length)
        || (x.dest != d.addr && decide (1024 ≤ d.host.tunnelled.length)) then d
    else if !dmaOk then d.qpError qp 0
    else
      let q := d.qp qp
      let d := d.setQp qp { q with sqHead := (q.sqHead + 1) % q.sqSize }
      let d := { d with host := { d.host with rr := qp, rrN := if d.host.rr = qp ∧ d.host.rrN < 8 then d.host.rrN + 1 else 1 } }
      d.takeDesc qp x

/-! ## Completions (R392, R393) -/

/-- The first completion of a queue pair that is ready, and the commands in flight without it. -/
def takeReady (gw : Option Nat) (n : Nat) : List Inflight → Option (Inflight × CmdResult × List Inflight)
  | [] => none
  | f :: fs => match f.result with
    | some r => if f.gw = gw ∧ f.qp = n then some (f, r, fs)
      else (takeReady gw n fs).map fun x => (x.1, x.2.1, f :: x.2.2)
    | none => (takeReady gw n fs).map fun x => (x.1, x.2.1, f :: x.2.2)

/-- The first answered tunnelled command of a queue pair, and the others. -/
def takeAnswered (n : Nat) : List Tunnelled → Option (Tunnelled × (Nat × CmdResult) × List Tunnelled)
  | [] => none
  | f :: fs => match f.result with
    | some r => if f.qp = n then some (f, r, fs) else (takeAnswered n fs).map fun x => (x.1, x.2.1, f :: x.2.2)
    | none => (takeAnswered n fs).map fun x => (x.1, x.2.1, f :: x.2.2)

/-- A queue pair whose session has closed is free once its last command has completed (R386); so is one after a reset of the
function (R383). -/
def Dev.freeQp (d : Dev) (n : Nat) : Dev :=
  let q := d.qp n
  if q.drop && d.qpIdle n && q.held.isNone then d.setQp n { q with drop := false, session := none } else d

/-- The idle limit counts from a record in either direction. -/
def Dev.touchSession (d : Dev) (k : Nat) : Dev :=
  match d.host.sessions.find k with
  | some ss => { d with host := { d.host with sessions := d.host.sessions.set k { ss with lastRecord := d.clk } } }
  | none => d

/-- A completion (Table 12-6). -/
def compBytes (dev qp tag sqHead : Nat) (phase : Bool) (r : CmdResult) (len : Nat) : List Byte :=
  bytesLE 2 tag ++ bytesLE 2 r.status ++ bytesLE 2 (dev % 4096 + 4096 * (qp % 8) + 32768 * bit01 phase) ++ bytesLE 2 sqHead
    ++ bytesLE 4 len ++ bytesLE 4 0 ++ (r.result ++ List.replicate (16 - r.result.length) 0).take 16

/-- A completion of queue pair `n` goes to the host: dropped and counted, sent as a COMP frame of the session with its data in, or
written at the CQ tail with the phase after the data in at the buffer (R385, R386, R392). -/
def Dev.putCompletion (d : Dev) (n dev tag : Nat) (din : Bool) (buf : Nat) (r : CmdResult) (dmaOk : Bool) : Dev :=
  let q := d.qp n
  let data := if din then r.data else []
  let bytes := compBytes dev n tag q.sqHead q.phase r data.length
  if q.drop then (d.setQp n { q with discarded := min 255 (q.discarded + 1) }).freeQp n
  else match q.session with
    | some k => (({ d with host := { d.host with tags := d.host.tags.set n tag } }).touchSession k).emit (.sessFrame k (frameBytes 2 (bytes ++ data)))
    | none =>
      if !dmaOk then (d.setQp n { q with discarded := min 255 (q.discarded + 1) }).qpError n 0
      else
        let tail := (q.cqTail + 1) % q.cqSize
        let d := d.setQp n { q with cqTail := tail, phase := if tail = 0 then !q.phase else q.phase, unsig := q.unsig + 1,
                                    unsigAt := if q.unsig = 0 then d.clk else q.unsigAt }
        let d := { d with host := { d.host with tags := d.host.tags.set n tag } }
        let d := if data.isEmpty then d else d.emit (.dma buf data)
        d.emit (.dma (q.cqBase.toNat + 32 * q.cqTail) bytes)

/-- A CQ entry is free (R392, DEDUCED, log entry 8). -/
def Qp.cqFree (q : Qp) : Bool := (q.cqTail + 1) % q.cqSize != q.cqHead

/-- The next completion of a queue pair is written, or a tunnelled command's completion is returned to its gateway
(R392, R387). After PWRFAIL_L none is (R471). -/
def execCompletionWrite (t : Nat) (gw : Option Nat) (qp : Nat) (dmaOk : Bool) (s : State) : Answer :=
  s.upd t (qp < 8) fun _ d =>
    if d.boot.pwrfail then d
    else if gw = none ∧ (d.qp qp).session = none ∧ !(d.qp qp).drop ∧ !(d.qp qp).cqFree then d
    else match takeReady gw qp d.host.inflight with
      | some (f, r, fs) =>
        let d := { d with host := { d.host with inflight := fs } }
        let d := match f.gw with
          | some g => d.tunnelBack g qp f.tag f.opcode r
          | none => d.putCompletion qp d.addr f.tag f.din f.buf r dmaOk
        d.releaseHeld
      | none =>
        if gw = none then match takeAnswered qp d.host.tunnelled with
          | some (f, (dev, r), fs) => ({ d with host := { d.host with tunnelled := fs } }).putCompletion qp dev f.tag f.din f.buf r dmaOk
          | none => d
        else d

/-- A completion written at once, before a reset that its command asks for (Table 12-9, R447). -/
def Dev.completeNow (d : Dev) (c : CmdRef) (r : CmdResult) : Dev :=
  let d := { d with host := { d.host with inflight := d.host.inflight.filter fun f => !(f.gw == c.gw && f.qp == c.qp && f.tag == c.tag) } }
  match c.gw with
  | some g => d.tunnelBack g c.qp c.tag 0x0013 r
  | none => d.putCompletion c.qp d.addr c.tag true 0 r true

/-- The queue pair's vector is signalled on the completion count, 0 standing for each one, or on the delay (R393, Table 12-4). -/
def execInterruptSignal (t : Nat) (qp : Nat) (s : State) : Answer :=
  s.upd t (qp < 8) fun _ d =>
    let q := d.qp qp
    let n := fieldN q.irq.toNat 0 8
    let us := fieldN q.irq.toNat 8 16
    let due := decide (0 < q.unsig) && (decide (n ≤ q.unsig)
      || (us != 0 && decide (q.unsigAt + ticksOfUs us ≤ d.clk)))
    if due then (d.setQp qp { q with unsig := 0 }).emit (.irq q.vector) else d

/-! ## Doorbells and enables (R391, R392, R394) -/

/-- A write of SQ_TAIL, which then reads back; an index at or beyond the ring is a queue-pair error (R394). A doorbell wakes the device from REST
(R487). -/
def Dev.sqDoorbell (d : Dev) (qp : Nat) (v : Word) : Dev :=
  let q := d.qp qp
  let i := fieldN v.toNat 0 12
  let d := d.wakeBy .doorbell
  let d := d.setQp qp { q with sqTail := i }
  if q.sqSize ≤ i then d.qpError qp 1 else d

def execSqTailWrite (t : Nat) (qp : Nat) (v : Word) (s : State) : Answer := s.upd t (qp < 8) fun _ d => d.sqDoorbell qp v

/-- A write of CQ_HEAD, with the same check. -/
def Dev.cqDoorbell (d : Dev) (qp : Nat) (v : Word) : Dev :=
  let q := d.qp qp
  let i := fieldN v.toNat 0 12
  let d := d.wakeBy .doorbell
  let d := d.setQp qp { q with cqHead := i }
  if q.cqSize ≤ i then d.qpError qp 1 else d

def execCqHeadWrite (t : Nat) (qp : Nat) (v : Word) (s : State) : Answer := s.upd t (qp < 8) fun _ d => d.cqDoorbell qp v

/-- An access counted in MBX.ERR (R382, R391, R495, R500). -/
def Dev.countErr (d : Dev) (addr : Nat) : Dev :=
  { d with host := { d.host with err := satInc d.host.err, errAddr := BitVec.ofNat 32 addr } }

/-- The address of a queue pair's register (Table 12-4). -/
def qpAddr (n off : Nat) : Nat := 0x10000 + 0x100 + 0x40 * n + off

/-- CFG after a write: the transport and the ceiling only while enable = 0 and idle = 1, the reserved bits 0 (R391). -/
def Dev.cfgWritten (d : Dev) (n : Nat) (v : Word) : Word × Bool :=
  let q := d.qp n
  let free := !q.enabled && d.qpIdle n
  let fixed := 0x606#32
  let v := v &&& 0x7FF#32
  if free then (v, false) else ((v &&& ~~~fixed) ||| (q.cfg &&& fixed), v &&& fixed != q.cfg &&& fixed)

/-- A write of CFG. Setting enable resets the indices and the phase; clearing it stops fetching (R391). -/
def Dev.writeCfg (d : Dev) (n : Nat) (v : Word) : Dev :=
  let q := d.qp n
  let (w, ignored) := d.cfgWritten n v
  let on := bitN w.toNat 0
  let q' := { q with cfg := w }
  let q' := if on && !q.enabled then
      { q' with sqHead := 0, sqTail := 0, cqHead := 0, cqTail := 0, phase := true, error := false, errCause := 0, unsig := 0 }
    else q'
  let d := d.setQp n q'
  if ignored then d.countErr (qpAddr n 0x14) else d

/-- Setting CFG.enable. -/
def execQpEnable (t : Nat) (qp : Nat) (v : Word) (s : State) : Answer :=
  s.upd t (qp < 8) fun _ d => d.writeCfg qp (v ||| 1#32)

/-- Clearing CFG.enable: fetching stops, commands in flight complete. -/
def execQpDisable (t : Nat) (qp : Nat) (v : Word) (s : State) : Answer :=
  s.upd t (qp < 8) fun _ d => d.writeCfg qp (v &&& ~~~1#32)

/-- A function level, hot or link-down reset: the queue pairs of PCIe are disabled and reset, the MSI-X table too; their
commands run on and their completions are discarded (R383, Table 16-2). -/
def Dev.pcieReset (d : Dev) : Dev :=
  let d := { d with host := { d.host with msix := [] } }
  (List.range 8).foldl (fun d n =>
    let q := d.qp n
    if q.transport = 1 then d.setQp n { drop := !d.qpIdle n || q.held.isSome, held := q.held } else d) d

def execPcieReset (t : Nat) (s : State) : Answer := s.upd t true fun _ d => d.pcieReset

/-! ## Sessions (R384 to R386) -/

/-- Reasons of EV_MBX_SESSION (DESIGN CHOICE, log entry 9): 0 bound, 1 closed, 2 FULL, 3 PROTOCOL. -/
abbrev sessBound : Nat := 0
abbrev sessClosed : Nat := 1
abbrev sessFull : Nat := 2
abbrev sessProtocol : Nat := 3

/-- A session closes: its commands run on, their completions are discarded, and the queue pair is free once the last of
them completes. -/
def Dev.closeSession (d : Dev) (k reason : Nat) : Dev :=
  match d.host.sessions.find k with
  | none => d
  | some ss =>
    let d := { d with host := { d.host with sessions := d.host.sessions.erase k } }
    let d := (d.setQp ss.qp { d.qp ss.qp with drop := true, held := none }).freeQp ss.qp
    ((d.raise Ev.MBX_SESSION (k + 256 * reason)).emit (.sessClose k)).emit (.irq 9)

/-- A mutual handshake completes: the session binds to the lowest Ethernet queue pair that is enabled and free, or is
refused FULL (R385). At alarm level 2 or above no new session is made (Table 14-7). -/
def execTlsHandshakeDone (t : Nat) (port1 : Bool) (role : Level) (remote : Nat) (s : State) : Answer :=
  s.upd t (role < 3 && remote < 65536) fun _ d =>
    let free := (List.range 8).find? fun n =>
      (d.qp n).enabled && (d.qp n).transport == 2 && (d.qp n).session.isNone && !(d.qp n).drop
    let slot := (List.range 4).find? fun k => (d.host.sessions.find k).isNone
    if 2 ≤ d.sec.alarm ∨ !bitN (d.pn P.sys_mbx_tls_en) (bit01 port1) then d
    else match free, slot with
      | some n, some k =>
        let d := d.setQp n { d.qp n with session := some k, level := role }
        let d := { d with host := { d.host with sessions := d.host.sessions.set k { qp := n, port1 := port1, level := role, remote := remote, lastRecord := d.clk,
                                                                                    idle := d.pn P.sys_mbx_idle_s } } }
        (d.raise Ev.MBX_SESSION (k + 256 * sessBound)).emit (.irq 9)
      | _, _ =>
        (({ d with host := { d.host with refusedFull := (d.host.refusedFull + 1) % 256 } }).raise Ev.MBX_SESSION (256 * sessFull)).emit (.sessRefused port1)

/-- A handshake or certificate check fails (R384). -/
def execTlsHandshakeFail (t : Nat) (s : State) : Answer :=
  s.upd t true fun _ d =>
    ({ d with host := { d.host with tlsFails := (d.host.tlsFails + 1) % 65536 } }).raise Ev.MBX_TLS_FAIL

/-- A frame of a session: a descriptor is taken while the queue pair has fewer commands in flight than its SQ size; an
unknown type or a length that disagrees closes the session (R386, R394). A frame that comes while it is not taken stays with TCP. -/
def execSessionFrameReceive (t : Nat) (sess : Nat) (f : SessFrame) (s : State) : Answer :=
  s.upd t (sess < 4) fun _ d =>
    match d.host.sessions.find sess with
    | none => d
    | some ss =>
      let d := d.touchSession sess
      match f with
      | .desc x true =>
        let q := d.qp ss.qp
        if d.serves && q.enabled && !q.error && q.held.isNone && decide ((d.inflightOf ss.qp).length < q.sqSize)
            && decide (d.host.inflight.length < 256) && (x.dest == d.addr || decide (d.host.tunnelled.length < 1024)) then
          d.takeDesc ss.qp x
        else d
      | .pong => d
      | .desc _ false | .other _ => (d.qpError ss.qp 2).closeSession sess sessProtocol

/-- A PING is answered by PONG (R385). -/
def execPingReceive (t : Nat) (sess : Nat) (s : State) : Answer :=
  s.upd t (sess < 4) fun _ d =>
    if (d.host.sessions.find sess).isSome then (d.touchSession sess).emit (.sessFrame sess (frameBytes 5 [])) else d

/-- sys.mbx_idle_s without a record (Table 12-2). -/
def execSessionIdleTimeout (t : Nat) (sess : Nat) (s : State) : Answer :=
  s.upd t (sess < 4) fun _ d =>
    match d.host.sessions.find sess with
    | some ss =>
      if max ss.lastRecord d.log.framedAt + ticksOfS ss.idle ≤ d.clk then d.closeSession sess sessClosed else d
    | none => d

/-- A session closes (R386). -/
def execSessionClose (t : Nat) (sess : Nat) (s : State) : Answer :=
  s.upd t (sess < 4) fun _ d => d.closeSession sess sessClosed

/-! ## The tunnel (R387 to R389) -/

/-- A destination takes a tunnelled descriptor under the privilege level of the gateway's queue pair (R387). -/
def execTunnelCommandReceive (t : Nat) (gw qp level : Nat) (x : Desc) (s : State) : Answer :=
  s.upd t (gw < 4096 && qp < 8 && level < 3) fun _ d =>
    if !d.serves then d else d.takeTunnelled (gw, qp, level, x)

/-- The tunnelled commands with one answered. -/
def setAnswer (qp tag dev : Nat) (r : CmdResult) : List Tunnelled → List Tunnelled × Bool
  | [] => ([], false)
  | f :: fs =>
    if f.qp = qp ∧ f.tag = tag ∧ f.result = none then ({ f with result := some (dev, r) } :: fs, true)
    else let x := setAnswer qp tag dev r fs; (f :: x.1, x.2)

/-- A tunnelled completion arrives at the gateway; one that comes after its timeout is discarded and counted (R389). -/
def execTunnelReplyReceive (t : Nat) (qp tag dev : Nat) (r : CmdResult) (s : State) : Answer :=
  s.upd t (qp < 8 && dev < 4096) fun _ d =>
    let x := setAnswer qp tag dev r d.host.tunnelled
    if x.2 then { d with host := { d.host with tunnelled := x.1 } }
    else { d with host := { d.host with lateReplies := d.host.lateReplies + 1 } }

/-- No tunnel reply within the bound: TIMEOUT, with the gateway as the device (R389, Table 12-6). -/
def execTunnelTimeout (t : Nat) (qp tag : Nat) (s : State) : Answer :=
  s.upd t (qp < 8) fun _ d =>
    let x := setAnswer qp tag d.addr (stRes Sc.TIMEOUT) d.host.tunnelled
    if x.2 && (d.host.tunnelled.all fun f => !(f.qp == qp && f.tag == tag && f.result.isNone) || decide (f.due ≤ d.clk)) then
      ({ d with host := { d.host with tunnelled := x.1, tunTimeouts := d.host.tunTimeouts + 1 } }).raise Ev.MBX_TUNNEL_TIMEOUT tag
    else d

end Sys2Proof.Machine
end

