-- ==== Sys2Proof/Machine/RecOps.lean ====
section
/-!
DEFINITION. Machine/RecOps.lean: the samples that the recorder takes of the other units (R356, R357), each at its
sample instant, while it watches them.
-/
namespace Sys2Proof.Machine

open Sys2Proof

/-- A list with an element inserted before the first that it precedes, and a list sorted by insertion. -/
def insertBy {α : Type} (le : α → α → Bool) (x : α) : List α → List α
  | [] => [x]
  | y :: r => if le x y then x :: y :: r else y :: insertBy le x r
def sortBy {α : Type} (le : α → α → Bool) (l : List α) : List α := l.foldr (insertBy le) []

/-- A sample of a source goes to its history when the recorder watches the source. -/
def Dev.recPut (d : Dev) (src : Nat) (x : RecSample) : Dev :=
  match d.acq.hist.find src with
  | some l => { d with acq := { d.acq with hist := d.acq.hist.set src (x :: l) } }
  | none => d

/-- What a chain's stages produced since the last time. -/
def Dev.recTaps (d : Dev) (n : Nat) : Dev :=
  let c := d.chain n
  if c.taps.isEmpty then d
  else
    let d := c.taps.foldl (fun (d : Dev) x =>
      d.recPut (x.cls * 4096 + (if x.cls = 3 then n - 48 else n)) ⟨x.ix, x.t, x.v, x.raw, x.tag, x.ok⟩) d
    d.setChain n { d.chain n with taps := [] }

/-- The code of a command state (Table 02-1). -/
def cmdCode : CellCmd → Nat
  | .byp => 0
  | .pos => 1
  | .neg => 2
  | .blk => 3

/-- A sample of a source without tags: 0x01 with a value, 0x00 without. -/
def plain (k : Nat) (t : Int) (v : Option F32) (raw : Int) : RecSample :=
  match v with
  | some x => ⟨k, t, x, raw, 1, true⟩
  | none => ⟨k, t, 0, 0, 0, false⟩

/-- The CELL samples of cycle `k`; without a value in a cycle that overran. -/
def Dev.recCells (d : Dev) (overrun : Bool) : Dev :=
  let k := d.cyc.k
  let t := d.tOf k * 256
  (List.range 48).foldl (fun (d : Dev) p =>
    if !d.cellAt p then d
    else
      let c := d.cell p
      let own := (d.armSt (d.portArm p)).own
      let key := (own.map fun b => b.keys.getD p 0xFFFF).getD 0xFFFF
      let sb := (own.map fun b => stateByte (b.states.getD p {})).getD 0
      let go := fun (v : F32) => if overrun || own.isNone then none else some v
      let d := d.recPut (0x5000 + 4 * p) (plain k t (go c.vPred) 0)
      let d := d.recPut (0x5001 + 4 * p) (plain k t (go (f32ofInt key)) key)
      let w := sb + 256 * cmdCode c.last
      let d := d.recPut (0x5002 + 4 * p) (plain k t (go (f32ofInt w)) w)
      d.recPut (0x5003 + 4 * p) (plain k t (c.lastDm.map f32ofInt) (c.lastDm.getD 0))) d

/-- The ARM samples of cycle `k` (R356). -/
def Dev.recArms (d : Dev) (overrun : Bool) : Dev :=
  let k := d.cyc.k
  let t := d.tOf k * 256
  d.arms.foldl (fun (d : Dev) a =>
    let s := d.armSt a
    let go := fun (v : F32) => if overrun then none else some v
    let put := fun (d : Dev) (i : Nat) (v : Option F32) (raw : Int) => d.recPut (0x6000 + 8 * a + i) (plain k t v raw)
    let d := put d 0 (s.uRef.bind fun u => go (f32ofRat u 100)) 0
    let d := put d 1 (go (f32scaled s.mq (-16))) 0
    let d := put d 2 (go (f32ofInt s.nUse)) s.nUse
    let d := put d 3 (go (f32ofInt s.bandNext)) s.bandNext
    let d := put d 4 (if overrun then none else d.armCurrent a (d.tOf k)) 0
    let d := put d 5 (go (f32ofRat s.vSum 1000)) 0
    let d := put d 6 (go (f32ofInt s.presence)) s.presence
    let subst := s.blocks.any fun b => !bitN s.fresh b.1
    let fl := bit01 overrun + 2 * bit01 s.sat + 4 * bit01 subst
    put d 7 (some (f32ofInt fl)) fl) d

end Sys2Proof.Machine
end

