-- ==== Sys2Proof/Machine/RecUnits.lean ====
section
/-!
DEFINITION. Machine/RecUnits.lean: the trigger units (R361 to R364), the samples a record stores (R357 to R359, R368) and
a record's image (R377).
-/
namespace Sys2Proof.Machine

open Sys2Proof

/-! ## Trigger units -/

/-- A fire as a unit reports it: trigger instant (2^−32 tick), detection instant (1/256 tick), interpolation. -/
abbrev RawFire := Int × Int × Nat

/-- A sample that a unit evaluates: V = 1, STK = 0 and FRZ = 0; only the outputs of a chain carry the last two. -/
def RecUnit.evaluable (u : RecUnit) (x : RecSample) : Bool :=
  bitN x.tag 0 && (u.src / 4096 != 0 || (!bitN x.tag 3 && !bitN x.tag 4))

/-- q of R364 from φ; a φ that is no number gives 0. -/
def crossQ (phi : F32) : Nat := (clampInt 0 256 ((f32floor 9 phi + 1) / 2)).toNat

/-- The crossing of level `lv` between two samples of a source with period `per` (1/256 tick). -/
def crossAt (per : Nat) (lv : F32) (a b : RecSample) : RawFire :=
  let q := crossQ (f32div (f32sub lv a.v) (f32sub b.v a.v))
  (a.t * 2 ^ 24 + ((q * per : Nat) : Int) * 2 ^ 16, b.t, q)

/-- A pulse of `w` samples meets rec.u_cmp. -/
def RecUnit.width (u : RecUnit) (w : Nat) : Bool :=
  match u.cmp with
  | 0 => decide (w < u.w1)
  | 1 => decide (u.w2 < w)
  | 2 => decide (u.w1 ≤ w ∧ w ≤ u.w2)
  | _ => decide (w < u.w1 ∨ u.w2 < w)

/-- The zone after a sample (RUNT): a zone rises at the upper boundary and falls below the lower one minus u_hys. -/
def RecUnit.zoneOf (u : RecUnit) (z : Nat) (x : F32) : Nat :=
  let z := if f32le u.hi x then 2 else if z = 0 ∧ f32le u.lo x = true then 1 else z
  if z = 2 ∧ f32lt x (f32sub u.hi u.hys) = true then (if f32lt x (f32sub u.lo u.hys) then 0 else 1)
  else if z = 1 ∧ f32lt x (f32sub u.lo u.hys) = true then 0
  else z

/-- The direction parameter admits a rising, or a falling, case. -/
def RecUnit.rise (u : RecUnit) : Bool := u.dir != 1
def RecUnit.fall (u : RecUnit) : Bool := u.dir != 0

/-- The first evaluable sample after a gap or the arm initialises the comparator and restarts the histories. -/
def RecUnit.init (u : RecUnit) (x : RecSample) : RecUnit :=
  let high := f32le u.hi x.v
  { u with fresh := false, high := high, prev := some x, highs := (x.t, high) :: u.highs, edge := none,
           zone := if high then 2 else if f32le u.lo x.v then 1 else 0, runt := 0, held := 1, hist := [x], delta := none, seen := x.t }

/-- EDGE and PULSE fires of a transition at `x`. -/
def RecUnit.onEdge (u : RecUnit) (per : Nat) (a x : RecSample) (up : Bool) : Option RawFire :=
  let lv := if up then u.hi else u.lo
  if u.typ = 0 then (if (if up then u.rise else u.fall) then some (crossAt per lv a x) else none)
  else if u.typ = 1 then match u.edge with
    | some (n, startUp) =>
      if startUp != up && (if up then u.fall else u.rise) && u.width (x.ix - n) then some (crossAt per lv a x) else none
    | none => none
  else none

/-- One sample through a unit: its new state, and its fire. -/
def RecUnit.take (u : RecUnit) (per : Nat) (x : RecSample) : RecUnit × Option RawFire :=
  if !u.evaluable x then ({ u with fresh := true, seen := x.t, nBad := u.nBad + 1 }, none)
  else match u.prev with
    | none => (u.init x, none)
    | some a =>
      if u.fresh then (u.init x, none)
      else
        let up := !u.high && f32le u.hi x.v
        let down := u.high && f32le x.v u.lo
        let high := (u.high || up) && !down
        let held := if up || down then 1 else u.held + 1
        let zone := u.zoneOf u.zone x.v
        let runt := if zone = u.zone then u.runt else if zone = 1 then (if u.zone = 0 then 1 else 2) else 0
        let keep := (x :: u.hist).take (u.k + 1)
        let delta : Option F32 := if u.typ = 4 ∧ keep.length = u.k + 1 then (keep.getLast?).map fun o => f32sub x.v o.v else none
        let u' := { u with high := high, highs := (x.t, high) :: u.highs, prev := some x, zone := zone, runt := runt, held := held,
                           hist := keep, delta := delta, seen := x.t,
                           edge := if up || down then some (x.ix, up) else u.edge }
        let fire : Option RawFire := match u.typ with
          | 2 =>
            if u.runt = 1 ∧ zone = 0 ∧ u.rise = true then some (crossAt per u.lo a x)
            else if u.runt = 2 ∧ zone = 2 ∧ u.fall = true then some (crossAt per u.hi a x)
            else none
          | 3 => if held = u.w2 ∧ ((high && u.rise) || (!high && u.fall)) = true then some (x.t * 2 ^ 24, x.t, 256) else none
          | 4 => match u.delta, delta with
            | some p, some n =>
              let s := u.hi
              let m := f32neg s
              let was := (u.rise && f32le s p) || (u.fall && f32le p m)
              let phi := fun (lv : F32) => crossAt per lv { a with v := p } { x with v := n }
              if was then none
              else if u.rise && f32le s n then some (phi s)
              else if u.fall && f32le n m then some (phi m)
              else none
            | _, _ => none
          | _ => if up || down then u.onEdge per a x up else none
        (u', fire)

/-- Samples through a unit, oldest first. -/
def RecUnit.takeAll (per : Nat) : RecUnit → List RecSample → RecUnit × List RawFire
  | u, [] => (u, [])
  | u, x :: xs =>
    let (u, f) := u.take per x
    let (u, fs) := RecUnit.takeAll per u xs
    (u, f.toList ++ fs)

/-- The comparator state of a qualifier at an instant: that of its latest sample not later than it. -/
def RecUnit.stateAt (u : RecUnit) (t : Int) : Option Bool := (u.highs.find? fun h => decide (h.1 ≤ t)).map (·.2)

/-! ## Stored samples (R357, R358) -/

/-- The 4 bytes of a sample in F32 or RAW32. -/
def recWord (raw : Bool) (x : RecSample) : Word :=
  if raw then BitVec.ofNat 32 (wrapN 24 x.raw + 2 ^ 24 * (x.tag % 256))
  else if x.ok then x.v else f32NanTag x.tag

/-- A missing sample. -/
def noSample (t : Int) : RecSample := ⟨0, t, 0, 0, 0, false⟩

/-- A reduction over the ok values of a window, in ascending order: 1 MIN, 2 MAX, 3 MEAN, 4 MINMAX, 5 RMS. -/
def reduceWords (red : Nat) (vs : List F32) : List Word :=
  match vs with
  | [] => if red = 4 then [f32NanTag 0, f32NanTag 0] else [f32NanTag 0]
  | v :: r =>
    let lo := r.foldl f32min v
    let hi := r.foldl f32max v
    let n := f32ofInt (r.length + 1)
    match red with
    | 1 => [lo]
    | 2 => [hi]
    | 3 => [f32div (r.foldl f32add v) n]
    | 4 => [lo, hi]
    | _ => [Config.fsqrt (f32div (r.foldl (fun s x => f32add s (f32mul x x)) (f32mul v v)) n)]

/-- The source index, kept by decimation, of the first sample at or after `trig` (2^−32 tick), from the newest sample
before it, or else the first one after; none for a source without samples. -/
def firstPost (c : RecChan) (hist : List RecSample) (trig : Int) : Option (Int × Int) :=
  let per : Int := c.period / max 1 c.div
  let anchor := match hist.find? fun x => decide (x.t * 2 ^ 24 < trig) with
    | some x => some x
    | none => hist.getLast?
  anchor.map fun a =>
    let n := -((a.t * 2 ^ 24 - trig) / (max 1 per * 2 ^ 24))
    let i := (a.ix : Int) + n
    let i0 := -(-i / (max 1 c.div : Nat)) * (max 1 c.div : Nat)
    (i0, a.t + (i0 - a.ix) * per)

/-- The stored sample at kept index `i`: its words and its tag. -/
def storedAt (c : RecChan) (hist : List RecSample) (i : Int) : List Word × Nat :=
  let at_ := fun (j : Int) => hist.find? fun x => decide ((x.ix : Int) = j)
  if c.red = 0 then
    let x := (at_ i).getD (noSample 0)
    ([recWord c.raw x], x.tag)
  else
    let xs := (List.range c.div).filterMap fun (m : Nat) => at_ (i - c.div + 1 + m)
    (reduceWords c.red ((xs.filter (·.ok)).map (·.v)), xs.foldl (fun n x => n ||| x.tag) 0)

/-- A channel's data in a record, and its descriptor as completed. `stop` is the boundary of an ABORT, 2^−32 tick. -/
def recChannel (c : RecChan) (hist : List RecSample) (trig : Int) (stop : Option Int) : RecChan × List Word :=
  match firstPost c hist trig with
  | none =>
    let one := if c.red = 4 then [f32NanTag 0, f32NanTag 0] else [recWord c.raw (noSample 0)]
    let n := match stop with
      | some _ => c.nPre
      | none => c.nPre + c.nPost
    ({ c with first := trig / 2 ^ 24, nPost := n - c.nPre }, (List.replicate n one).flatten)
  | some (i0, t0) =>
    let post := match stop with
      | some b => ((List.range c.nPost).filter fun j => decide ((t0 + ((j * c.period : Nat) : Int)) * 2 ^ 24 < b)).length
      | none => c.nPost
    let xs := (List.range (c.nPre + post)).map fun (j : Nat) => storedAt c hist (i0 + ((j : Int) - c.nPre) * c.div)
    ({ c with nPost := post, tagOr := xs.foldl (fun n x => n ||| x.2) 0, first := t0 - ((c.nPre * c.period : Nat) : Int) }, xs.flatMap (·.1))

/-! ## Record image (R377) -/

/-- Bytes of one stored sample. -/
def RecChan.bytes (c : RecChan) : Nat := if c.red = 4 then 8 else 4

/-- B_rec. -/
def recBytes (chans : List RecChan) : Nat := chans.foldl (fun n c => n + 32 + c.bytes * (c.nPre + c.nPost)) 256

/-- Cycle, tick and 2^−32 tick of an instant. -/
def splitInst (tMod : Nat) (x : Int) : Nat × Nat × Nat :=
  let ticks := (x / 2 ^ 32).toNat
  (ticks / max 1 tMod, ticks % max 1 tMod, (x % 2 ^ 32).toNat)

/-- The header (Table 11-7). -/
def recHeader (tMod dev : Nat) (r : Record) : List Byte :=
  let i := splitInst tMod r.trig
  let l := splitInst tMod (r.late.getD 0)
  bytesLE 4 0x52434452 ++ bytesLE 2 1 ++ bytesLE 2 dev ++ bytesLE 4 r.id ++ bytesLE 2 r.cause ++ bytesLE 1 r.primary
    ++ bytesLE 1 (bit01 (1 < r.nSeg) + 2 * bit01 r.late.isSome + 4 * bit01 r.truncated + 8 * bit01 r.damaged + 16 * bit01 r.wallV + 32 * bit01 r.ctV)
    ++ bytesLE 6 i.1 ++ bytesLE 2 i.2.1 ++ bytesLE 4 i.2.2 ++ bytesLE 4 r.q ++ bytesLE 12 r.wall.toNat ++ bytesLE 4 r.nLate
    ++ bytesLE 4 r.nMissed ++ bytesLE 2 r.chans.length ++ bytesLE 2 r.nSeg ++ bytesLE 4 r.pre ++ bytesLE 4 r.post
    ++ bytesLE 8 (recBytes r.chans) ++ bytesLE 4 r.lAlign ++ bytesLE 8 r.tbcDec
    ++ bytesLE 6 (if r.late.isSome then l.1 else 0) ++ bytesLE 2 (if r.late.isSome then l.2.1 else 0)
    ++ bytesLE 8 r.cfg.toNat ++ bytesLE 156 0

/-- The descriptors (Table 11-8), the data of the first channel at `off`. -/
def recDescs (tMod : Nat) : Nat → List RecChan → List Byte
  | _, [] => []
  | off, c :: cs =>
    let i := splitInst tMod (c.first * 2 ^ 24)
    bytesLE 2 c.src ++ bytesLE 1 (c.red + 8 * bit01 c.raw) ++ bytesLE 1 c.tagOr ++ bytesLE 2 c.div ++ bytesLE 2 0
      ++ bytesLE 4 c.nPre ++ bytesLE 4 c.nPost ++ bytesLE 4 c.period ++ bytesLE 6 i.1 ++ bytesLE 2 i.2.1 ++ bytesLE 4 off
      ++ recDescs tMod (off + c.bytes * (c.nPre + c.nPost)) cs

/-- Byte `i` lies in a mapped-out page. -/
def Record.hole (r : Record) (i : Nat) : Bool := r.holes.any fun h => decide (h.1 ≤ i) && decide (i < h.1 + h.2)

/-- The image; the bytes of mapped-out pages read 0 (R372). -/
def recImage (tMod dev : Nat) (r : Record) : List Byte :=
  let bs := recHeader tMod dev r ++ recDescs tMod (256 + 32 * r.chans.length) r.chans
    ++ r.data.flatMap fun ws => ws.flatMap fun w => bytesLE 4 w.toNat
  if r.holes.isEmpty then bs else (bs.zip (List.range bs.length)).map fun b => if r.hole b.2 then 0 else b.1

end Sys2Proof.Machine
end

