-- ==== Sys2Proof/Machine/RecCore.lean ====
section
/-!
DEFINITION. Machine/RecCore.lean: the recorder as a whole: what REC_ARM checks and sets up, what the units see, the
decision grid, a record from its start to its completion, and the pool (R356 to R376).
-/
namespace Sys2Proof.Machine

open Sys2Proof

def Dev.setRec (d : Dev) (x : Rec) : Dev := { d with acq := x }

/-! ## Sources (R356, R361) -/

/-- Units may watch these classes too: EVENT, BUS, FABRIC, FABRIC_ANY. -/
def watchOnly (src : Nat) : Bool :=
  src == 0x8000 || (src / 4096 == 9 && decide (src % 4096 < 4)) || src / 4096 == 10 || src == 0xB000

/-- The class offers F32 values (Table 11-1). -/
def srcF32 (src : Nat) : Bool :=
  match src / 4096 with
  | 0 | 7 | 14 => true
  | 5 => src % 4 == 0
  | 6 => [0, 1, 4, 5].contains (src % 8)
  | _ => false
def srcRaw (src : Nat) : Bool :=
  match src / 4096 with
  | 7 | 14 => false
  | 5 | 6 => !srcF32 src
  | _ => true

/-- The sources that a source is formed from. -/
def Dev.srcParts (d : Dev) (src : Nat) : List Nat :=
  if src / 4096 = 14 then (d.setPorts (src % 4096)).map fun p => setMember (d.pni P.rec_set_item (src % 4096)) p else []

/-- Latency of a chain stage, ns (Table 11-4). -/
def Dev.chainLat (d : Dev) (n cls : Nat) : Nat :=
  let cfg := d.chainCfg n
  let p := preset cfg.preset
  let s := d.coefSet (d.activeSlot n)
  let tau := match cls with
    | 0 => tau256 p s
    | 1 => tau256 p { s with c2 := [] }
    | _ => p.k * (p.ms - 1) * 128
  let base := ceilDiv ((cfg.delay * 256 + tau) * cfg.tIn) 256
  if n < 96 then base + 5500 else ((base : Int) + cfg.skew + 2000).toNat

/-- L_src of a source that is no set, ns (Table 11-4). -/
def Dev.partLat (d : Dev) (src : Nat) : Nat :=
  let i := src % 4096
  match src / 4096 with
  | 0 => d.chainLat i 0
  | 1 => d.chainLat i 1
  | 2 => d.chainLat i 2
  | 3 => 5700
  | 4 => match d.sarSource i with
    | some n => passLen (d.sarSlots n) * 8 + 1000
    | none => 1000
  | 5 | 6 => d.pn P.mod_t_mod_ns + 2000
  | 7 => d.tCtlNs
  | 8 => d.pn P.rec_ev_lat_us * 1000
  | 9 => d.pni P.rec_bus_dly_ns i + 200 + (if d.pvi P.rec_bus_mode i = 1 then d.pn P.rec_bus_ofs_ns else 0)
  | _ => d.pn P.rec_fab_lat_us * 1000
def Dev.srcLat (d : Dev) (src : Nat) : Nat :=
  if src / 4096 = 14 then (d.srcParts src).foldl (fun m x => max m (d.partLat x)) 0 else d.partLat src

/-! ## Arming (R358 to R361, R365, R369) -/

/-- Channel `c` as the parameters configure it; none when it is unused or not allowed. -/
def Dev.recChanOf (d : Dev) (c : Nat) : Option RecChan :=
  let src := d.pni P.rec_ch_src c
  let red := d.pni P.rec_ch_red c
  let div := max 1 (d.pni P.rec_ch_div c)
  let raw := d.pvi P.rec_ch_fmt c == 1
  match d.srcPeriod src with
  | some p =>
    if (raw && !srcRaw src) || (!raw && !srcF32 src) || (red != 0 && (raw || decide (div < 2))) || p == 0 then none
    else
      let ns := p * div
      some { src := src, raw := raw, red := red, div := div, period := ns * 160, nPre := ceilDiv (d.pn P.rec_pre_ns) ns,
             nPost := ceilDiv (d.pn P.rec_post_ns) ns }
  | none => none

/-- The channels in use. -/
def Dev.recUsed (d : Dev) : List Nat := (List.range 256).filter fun c => d.pni P.rec_ch_src c != 0xFFFF

/-- Unit `u` as the parameters configure it. -/
def Dev.recUnitOf (d : Dev) (u : Nat) : RecUnit :=
  { role := d.pni P.rec_u_role u, src := d.pni P.rec_u_src u, typ := d.pni P.rec_u_type u, dir := d.pni P.rec_u_dir u,
    hi := d.pfi P.rec_u_thr_hi u, lo := d.pfi P.rec_u_thr_lo u, hys := d.pfi P.rec_u_hys u, cmp := d.pni P.rec_u_cmp u,
    w1 := d.pni P.rec_u_w1 u, w2 := d.pni P.rec_u_w2 u, k := d.pni P.rec_u_k u, ev := d.pni P.rec_u_ev u,
    qual := d.pni P.rec_u_qual u, holdoff := d.pni P.rec_u_holdoff_us u }

/-- The unit's source suits its type (R361, Table 11-3). -/
def Dev.unitOk (d : Dev) (u : RecUnit) : Bool :=
  u.role == 0 || (match u.typ with
    | 5 => u.src == 0x8000
    | 6 => watchOnly u.src && u.src != 0x8000
    | _ => (d.srcPeriod u.src).isSome)

/-- Segments of the pool (R369). -/
def Dev.poolSegs (d : Dev) : Nat := d.pn P.rec_pool_mb * 1024 / max 1 (d.pn P.rec_seg_kb)
def Dev.segBytes (d : Dev) : Nat := d.pn P.rec_seg_kb * 1024

/-- The segment of the recorder's pool that holds a page, with the page's offset in it (DEDUCED, log entry 65). -/
def Dev.segmentOf (d : Dev) (page : Nat) : Nat × Nat :=
  let n := max 1 (d.segBytes / 4096)
  (page / n, page % n * 4096)

/-- A segment that has left the pool with a mapped-out page, at a boundary or at boot (R465, R467). -/
def Dev.segLost (d : Dev) (n : Nat) : Bool :=
  d.flt.mapped.any fun m => !d.flt.leaving.contains m.1 && (d.segmentOf m.1).1 == n

/-- The free segments. -/
def Dev.freeSegs (d : Dev) : List Nat := (List.range d.acq.pool).filter fun n => !d.acq.used.contains n && !d.segLost n

/-- What REC_ARM finds: a status, or the channels, the units, L_align and k. -/
structure ArmPlan where
  chans : List RecChan
  units : List RecUnit
  lAlign : Nat
  k : Nat
  deriving DecidableEq, Repr

def Dev.armPlan (d : Dev) : Except Nat ArmPlan :=
  let used := d.recUsed
  let chans := used.filterMap d.recChanOf
  let units := (List.range 16).map d.recUnitOf
  let lAlign := (units.filter fun u => u.role != 0).foldl (fun m u => max m (d.srcLat u.src + 500)) 0
  let rate := chans.foldl (fun (w : Nat × Nat) c => fracAdd w (c.bytes, max 1 (c.period / 160))) (0, 1)
  let mem := d.poolSegs * d.segBytes
  let pre := d.pn P.rec_pre_ns
  let sReq := chans.foldl (fun n c => n + c.bytes * ceilDiv (pre + lAlign + 1000) (max 1 (c.period / 160))) 0
  let k := ceilDiv (recBytes chans) (d.segBytes - 64)
  let free := ((List.range d.poolSegs).filter fun n => !d.acq.used.contains n && !d.segLost n).length
  if chans.length ≠ used.length ∨ units.all d.unitOk = false ∨ 2 * rate.2 < rate.1 then .error Sc.RANGE
  else if 65536 < d.poolSegs ∨ (d.flt.dramPages - 8192) * 4096 < mem ∨ (d.flt.dramPresent = false ∧ 0 < mem) then .error Sc.RANGE
  else if 983040 < sReq then .error Sc.PRE_EXCEEDS
  else if k = 1 ∨ (d.pv P.rec_chain = 1 ∧ k ≤ free) then .ok ⟨chans, units, lAlign, k⟩
  else .error Sc.POST_EXCEEDS

/-- Ticks of control time now. -/
def Dev.ctTicks (d : Dev) : Nat := (d.ctNow / 2 ^ 32).toNat

/-- L_align in ticks, rounded up. -/
def Rec.alignTicks (r : Rec) : Nat := ceilDiv (r.lAlign * 5) 8

/-- The chains' taps follow what the recorder watches. -/
def Dev.setTaps (d : Dev) : Dev :=
  (List.range 104).foldl (fun (d : Dev) n =>
    let m := maskOf 4 fun c => d.acq.hist.any fun h => h.1 == (if c = 3 then 0x3000 + (n - 48) else c * 4096 + n) && (c != 3 || (48 ≤ n && n < 96))
    let c := d.chain n
    if c.tap = m then d else d.setChain n { c with tap := m, taps := c.taps.filter fun x => bitN m x.cls }) d

/-- The sources watched while the recorder is armed. -/
def Dev.recWatch (d : Dev) (p : ArmPlan) : List Nat :=
  let srcs := (p.chans.map (·.src)) ++ ((p.units.filter fun u => u.role != 0 && !watchOnly u.src).map (·.src))
  (srcs ++ srcs.flatMap d.srcParts).eraseDups

/-- The pool follows rec.pool_mb and rec.seg_kb while no record holds a segment. -/
def Dev.recPool (d : Dev) : Dev :=
  if d.acq.records.isEmpty && d.acq.current.isNone && d.acq.closing.isEmpty then d.setRec { d.acq with pool := d.poolSegs } else d

/-- A REC_READ of the record is in flight: its first argument names the record. -/
def Dev.recReading (d : Dev) (id : Nat) : Bool :=
  d.host.inflight.any fun f => f.opcode == 0x00D3 && natLE (f.args.take 4) == id

/-- A re-arm that finds fewer than k free segments: it waits, or frees the oldest complete records that are not being read
(R371). -/
def Dev.rearm (d : Dev) : Dev :=
  let need := d.acq.k
  let free := fun (d : Dev) (r : Record) =>
    if need ≤ d.freeSegs.length || d.recReading r.id then d
    else (d.setRec { d.acq with records := d.acq.records.filter (·.id != r.id), used := d.acq.used.filter fun n => !r.segs.contains n }).raise
      Ev.REC_OVERWRITE r.id
  let d := if d.pv P.rec_full_mode = 1 then d.acq.records.foldl free d else d
  if need ≤ d.freeSegs.length then d.setRec { d.acq with waiting := false }
  else if d.acq.waiting then d
  else (d.setRec { d.acq with waiting := true }).raise Ev.REC_FULL

/-- The recorder is armed. -/
def Dev.recArm (d : Dev) (p : ArmPlan) (auto : Bool) : Dev :=
  let d := d.recPool
  let now := d.ctTicks
  let slot := now / 25
  let d := d.setRec { d.acq with
    armed := true, auto := auto, waiting := false, chans := p.chans, units := p.units, lAlign := p.lAlign, k := p.k,
    hist := (d.recWatch p).foldl (fun (t : Tab (List RecSample)) x => t.set x []) [], next := slot, eligible := slot, lateTo := 0, rearmAt := none, fires := [], forced := none,
    made := 0, nMissed := 0, enabled := now, evSeq := d.log.nextSeq, taken := (now : Int) * 256 }
  d.setTaps.rearm

/-- The recorder is disarmed; what a record in progress still needs stays watched. -/
def Dev.recDisarmed (d : Dev) : Dev :=
  let d := d.setRec { d.acq with armed := false, waiting := false, units := [], fires := [], rearmAt := none }
  let d := match d.acq.forced with
    | some (c, _) => (d.setRec { d.acq with forced := none }).complete c 0x00D2 (stRes Sc.STATE)
    | none => d
  if d.acq.current.isSome || !d.acq.closing.isEmpty then d else (d.setRec { d.acq with hist := [] }).setTaps

/-! ## Samples and fires -/

/-- The value of set `s` from its members' samples at one instant (R359). -/
def setValue (op : Nat) (xs : List RecSample) (ix : Nat) (t : Int) : RecSample :=
  match (xs.filter (·.ok)).map (·.v) with
  | [] => noSample t
  | v :: r =>
    let sum := r.foldl f32add v
    let x := match op with
      | 0 => r.foldl f32min v
      | 1 => r.foldl f32max v
      | 2 => f32div sum (f32ofInt (r.length + 1))
      | _ => sum
    ⟨ix, t, x, 0, 1, true⟩

/-- The new values of a set, in the order of its members' indices: each once every member has that sample or the set's latency has
passed since its instant, that of the lowest port's sample. -/
def Dev.formSet (d : Dev) (src : Nat) : Dev :=
  let parts := d.srcParts src
  let s := src % 4096
  let now : Int := (d.ctTicks : Int) * 256
  let lat : Int := (d.srcLat src * 160 : Nat)
  let last : Option Nat := (((d.acq.hist.find src).getD []).head?).map (·.ix)
  let new := (parts.flatMap fun m => (d.acq.hist.find m).getD []).filter fun x => match last with
    | some i => decide (i < x.ix)
    | none => true
  let ixs := sortBy (fun a b => decide (a ≤ b)) ((new.map (·.ix)).eraseDups)
  (ixs.foldl (fun (acc : Dev × Bool) ix =>
    let d := acc.1
    let ms := parts.map fun m => ((d.acq.hist.find m).getD []).find? fun y => y.ix == ix
    let got := ms.filterMap id
    let t := (got.head?.map (·.t)).getD 0
    if acc.2 && (ms.all (·.isSome) || decide (t + lat ≤ now)) then
      let v := setValue (d.pni P.rec_set_op s) got ix t
      let ok := got.filter (·.ok)
      let d := d.setRec { d.acq with sets := d.acq.sets.set s (v.v, ok.length, parts.length),
                                     setNaN := if ok.isEmpty || f32isNan v.v then d.acq.setNaN.modify 0 s (· + 1) else d.acq.setNaN }
      (d.recPut src { v with ix := ix, t := t }, true)
    else (d, false)) (d, true)).1

/-- What the other units have produced since the last time reaches the histories. -/
def Dev.recGather (d : Dev) : Dev :=
  let d := (List.range 104).foldl Dev.recTaps d
  d.acq.hist.foldl (fun (d : Dev) h => if h.1 / 4096 = 14 then d.formSet h.1 else d) d

/-- A fire counts for its unit (Table 16-10). -/
def Dev.countFire (d : Dev) (u : Nat) (inst : Int) (q : Nat) : Dev :=
  match d.acq.units[u]? with
  | some x => d.setRec { d.acq with units := d.acq.units.set u { x with nFires := x.nFires + 1, lastFire := inst, lastQ := q } }
  | none => d

/-- A fire in its slot, or in the first undecided slot when its own has been decided (R366). -/
def Dev.addFire (d : Dev) (u : Nat) (f : RawFire) : Dev :=
  let slot := (f.2.1 / 6400).toNat
  let x : RecFire := if slot < d.acq.next then ⟨u, (25 * d.acq.next : Nat) * 2 ^ 32, f.2.1, d.acq.next, f.2.2, some f.1⟩
    else ⟨u, f.1, f.2.1, slot, f.2.2, none⟩
  (d.setRec { d.acq with fires := d.acq.fires ++ [x], nLate := if x.late.isSome then d.acq.nLate + 1 else d.acq.nLate }).countFire u f.1 f.2.2

/-- A unit takes the samples of its source that it has not seen. -/
def Dev.feedUnit (d : Dev) (u : Nat) : Dev :=
  match d.acq.units[u]? with
  | some x =>
    if x.role = 0 then d
    else match d.acq.hist.find x.src with
      | some l =>
        let per := ((d.srcPeriod x.src).getD 1) * 160
        let (y, fs) := RecUnit.takeAll per x (l.filter fun z => decide (x.seen < z.t)).reverse
        fs.foldl (fun (d : Dev) f => d.addFire u f) (d.setRec { d.acq with units := d.acq.units.set u y })
      | none => d
  | none => d

/-- The events raised since the last time fire the EVENT units (Table 11-3). -/
def Dev.feedEvents (d : Dev) : Dev :=
  let new := d.log.ring.filter fun e => decide ((e.seq - d.acq.evSeq).toNat < 2 ^ 31) && e.cont.isNone
  let d := d.setRec { d.acq with evSeq := d.log.nextSeq }
  new.foldl (fun (d : Dev) e =>
    (List.range 16).foldl (fun (d : Dev) u => match d.acq.units[u]? with
      | some x =>
        let mask := x.ev / 65536
        if x.role != 0 && x.typ == 5 && e.code &&& mask == (x.ev % 65536) &&& mask then
          let tk : Int := (e.cycle * d.tModTicks + e.tick : Nat)
          d.addFire u (tk * 2 ^ 32, tk * 256, 0)
        else d
      | none => d) d) d

/-- An instant from outside fires the EXTERNAL units that watch its source. A late one is placed in the first undecided
slot with its carried instant. -/
def Dev.external (d : Dev) (src : Nat → Bool) (inst : Int) (late : Bool) : Dev :=
  if !d.acq.armed then d
  else (List.range 16).foldl (fun (d : Dev) u => match d.acq.units[u]? with
    | some x =>
      if x.role != 0 && x.typ == 6 && src x.src then
        if late then
          let n := d.acq.next
          (d.setRec { d.acq with nLate := d.acq.nLate + 1, fires := d.acq.fires ++ [⟨u, (25 * n : Nat) * 2 ^ 32, inst / 2 ^ 24, n, 0, some inst⟩] }).countFire u inst 0
        else d.addFire u (inst, inst / 2 ^ 24, 0)
      else d
    | none => d) d

/-! ## Decisions (R363, R366, R367, R370, R371) -/

/-- The qualifier of a unit holds at an instant. -/
def Dev.qualified (d : Dev) (x : RecUnit) (det : Int) : Bool :=
  match x.qual / 16 % 4, d.acq.units[x.qual % 16]? with
  | 0, _ => true
  | 1, some q => q.stateAt det == some true
  | 2, some q => q.stateAt det == some false
  | 3, some q => q.fired
  | _, none => false
  | _, _ => false

/-- A fire judged: hold-off, then qualification. The unit's hold-off starts with any fire. -/
def Dev.judgeFire (acc : Dev × List RecFire) (f : RecFire) : Dev × List RecFire :=
  let d := acc.1
  match d.acq.units[f.unit]? with
  | none => acc
  | some x =>
    if f.det < x.ignore then (d.setRec { d.acq with units := d.acq.units.set f.unit { x with nHold := x.nHold + 1 } }, acc.2)
    else
      let ok := d.qualified x f.det
      let y := { x with ignore := f.det + (ticksOfUs x.holdoff * 256 : Nat), fired := x.fired || ok, nQual := if ok then x.nQual + 1 else x.nQual }
      (d.setRec { d.acq with units := d.acq.units.set f.unit y }, if ok && x.role == 1 then acc.2 ++ [f] else acc.2)

/-- The order in which fires of a slot are judged. -/
def fireBefore (a b : RecFire) : Bool := decide (a.det < b.det) || (a.det == b.det && decide (a.unit ≤ b.unit))

/-- The wall time of a control-time instant. -/
def Dev.wallOf (d : Dev) (inst : Int) : Stamp96 :=
  let c := d.tim.ct
  stampOf (d.tim.wall.at (c.t0 + (inst - c.v0) * 2 ^ 40 / (2 ^ 40 + c.rho)))

/-- The pulses of a record on the bus lines it drives (R374). -/
def Dev.recPulses (d : Dev) (trig : Int) : Dev :=
  let at_ : Int := (trig + d.pv P.rec_bus_ofs_ns * (5 * 2 ^ 29) + 2 ^ 31) / 2 ^ 32
  let late := decide (at_ < (d.ctTicks : Int) + 63)
  (List.range 4).foldl (fun (d : Dev) n =>
    if bitN (d.pn P.rec_export_bus) n && bitN (d.pn P.rec_bus_drive) n && d.pvi P.rec_bus_mode n != 0 then
      d.setRec { d.acq with pulses := d.acq.pulses ++ [(n, at_, late)] }
    else d) d

/-- The TRIGGER block of a record on every port in UP (R376). -/
def Dev.recTrigger (d : Dev) (r : Record) : Dev :=
  let i := splitInst d.tModTicks r.trig
  let m : TrigMsg := ⟨d.addr, 0, r.late.isSome, r.primary == 0x1F, r.id, r.cause, d.tim.gen, i.1, i.2.1, i.2.2⟩
  let d := [0, 1, 2, 3].foldl (fun (d : Dev) p => d.give p (.trigger m)) d
  d.setRec { d.acq with casts := d.acq.casts ++ [(d.addr, r.id, d.clk)], fabTx := d.acq.fabTx + 1 }

/-- t_end of a record, 2^−32 tick (R368). -/
def Record.ends (r : Record) : Int := r.trig + r.post * (5 * 2 ^ 29)

/-- With `n` records made AUTO stops (R370). -/
def Dev.recLast (d : Dev) (n : Nat) : Bool := d.pn P.rec_count != 0 && decide (d.pn P.rec_count ≤ n)

/-- A record starts in a decided slot (R366, R367, R370). -/
def Dev.startRecord (d : Dev) (slot : Nat) (fs : List RecFire) (forced : Bool) (cfg : BitVec 64) : Dev :=
  let cause := if forced then 0 else maskOf 16 fun u => fs.any fun f => f.unit == u
  let prim : Option RecFire := if forced then none else fs.foldl (fun (b : Option RecFire) f => match b with
    | some x => if f.unit < x.unit then some f else b
    | none => some f) none
  let trig := (prim.map (·.inst)).getD ((25 * slot : Nat) * 2 ^ 32)
  let late : Option Int := match prim.bind (·.late) with
    | some x => some x
    | none => if forced then none else (fs.find? fun f => f.late.isSome).bind (·.late)
  let r : Record :=
    { id := d.acq.nextId, cause := cause, primary := (prim.map (·.unit)).getD 0x1F, trig := trig, q := (prim.map (·.q)).getD 0,
      late := late, wallV := d.tim.wallValid, ctV := d.tim.ctValid, wall := d.wallOf trig, nMissed := d.acq.nMissed, nSeg := d.acq.k,
      pre := d.pn P.rec_pre_ns, post := d.pn P.rec_post_ns, lAlign := d.acq.lAlign, tbcDec := d.tbc, cfg := cfg,
      chans := d.acq.chans, segs := d.freeSegs.take d.acq.k }
  let until_ := ((r.ends + 500 * 2 ^ 32) / 2 ^ 32 / 25).toNat
  let d := d.setRec { d.acq with
    current := some r, nextId := d.acq.nextId + 1, made := d.acq.made + 1, nMissed := 0, used := d.acq.used ++ r.segs,
    eligible := until_, lateTo := until_, rearmAt := if d.acq.auto && !d.recLast (d.acq.made + 1) then some until_ else none, units := d.acq.units.map fun u => { u with fired := false } }
  let d := d.raiseB Ev.REC_TRIGGER (bytesLE 4 r.id ++ bytesLE 2 r.cause)
  let src : Nat := match prim.bind fun f => d.acq.units[f.unit]? with
    | some u => u.src
    | none => 0
  let d := if src / 4096 = 9 then d else d.recPulses trig
  if d.pv P.rec_export_fab = 1 ∧ src / 4096 ≠ 10 ∧ src / 4096 ≠ 11 then d.recTrigger r else d

/-- Fires that start nothing are counted in the last record's late-fire field. -/
def Dev.countLate (d : Dev) (n : Nat) : Dev :=
  let add := fun (r : Record) => if r.id + 1 = d.acq.nextId then { r with nLate := r.nLate + n } else r
  d.setRec { d.acq with current := d.acq.current.map add, closing := d.acq.closing.map add, records := d.acq.records.map add }

/-- The recorder may start a record in the slot. -/
def Dev.canStart (d : Dev) (slot : Nat) : Bool :=
  d.acq.armed && !d.acq.waiting && d.acq.current.isNone && decide (d.acq.eligible ≤ slot)
    && (if d.acq.auto then !d.recLast d.acq.made else d.acq.made == 0)

/-- AUTO re-arms in the slot that contains t_end + 0.8 µs, whether or not the record is complete in DRAM by then (R370, R371). -/
def Dev.recRearm (d : Dev) (slot : Nat) : Dev :=
  match d.acq.rearmAt with
  | some e =>
    if d.acq.armed ∧ e ≤ slot then
      (d.setRec { d.acq with rearmAt := none, closing := d.acq.closing ++ d.acq.current.toList, current := none }).rearm
    else d
  | none => d

/-- One slot is decided. -/
def Dev.decideSlot (d : Dev) (cfg : BitVec 64) (slot : Nat) : Dev :=
  let d := d.recRearm slot
  let here := sortBy fireBefore (d.acq.fires.filter fun f => decide (f.slot ≤ slot))
  let d := d.setRec { d.acq with fires := d.acq.fires.filter fun f => decide (slot < f.slot), next := slot + 1 }
  let (d, go) := here.foldl Dev.judgeFire (d, [])
  let forced := d.acq.forced.filter fun x => decide (x.2 ≤ slot)
  match forced with
  | some (c, _) =>
    let d := d.setRec { d.acq with forced := none }
    if d.canStart slot then (d.startRecord slot [] true cfg).complete c 0x00D2 (stRes Sc.DONE)
    else d.complete c 0x00D2 (stRes Sc.STATE)
  | none =>
    if go.isEmpty then d
    else if d.canStart slot then d.startRecord slot go false cfg
    else if slot ≤ d.acq.lateTo then d.countLate go.length
    else if d.acq.armed && d.acq.auto && !d.recLast d.acq.made then d.setRec { d.acq with nMissed := d.acq.nMissed + go.length }
    else d

/-- The slots that hold a fire, or the forced one, up to `upto`, in order. -/
def Dev.decideSlots (cfg : BitVec 64) (upto : Nat) : Nat → Dev → Dev
  | 0, d => d
  | n + 1, d =>
    let slots := (d.acq.fires.map fun f => max f.slot d.acq.next) ++ (d.acq.forced.toList.map fun x => max x.2 d.acq.next)
    match slots with
    | [] => d
    | s :: r =>
      let m := r.foldl min s
      if m < upto then (d.decideSlot cfg m).decideSlots cfg upto n else d

/-- Samples no longer needed leave the histories, and comparator states before the first undecided slot those of the units. -/
def Dev.recPrune (d : Dev) : Dev :=
  let base : Int := (25 * d.acq.next : Nat) * 256
  let from_ := (d.acq.current.toList ++ d.acq.closing).foldl (fun m r => min m (r.trig / 2 ^ 24)) base
  let keep := fun (src : Nat) => d.acq.chans.foldl (fun (m : Int) c =>
    if c.src = src ∨ (d.srcParts c.src).contains src then max m (((c.nPre + 3) * c.period : Nat) : Int) else m) 6400
  let hist := d.acq.hist.map fun (h : Nat × List RecSample) => (h.1, h.2.filter fun x => decide (from_ - keep h.1 ≤ x.t))
  let later := fun (h : Int × Bool) => decide (base < h.1)
  let units := d.acq.units.map fun u => { u with highs := u.highs.takeWhile later ++ (u.highs.dropWhile later).take 1 }
  d.setRec { d.acq with hist := hist, units := units }

/-! ## Completion (R368, R370 to R372) -/

/-- A record's data from the histories; `stop` is the boundary of an ABORT. -/
def Dev.recFilled (d : Dev) (stop : Option Int) (r : Record) : Record :=
  let cs := r.chans.map fun c => recChannel c ((d.acq.hist.find c.src).getD []) r.trig stop
  { r with chans := cs.map (·.1), data := cs.map (·.2), truncated := stop.isSome, complete := true }

/-- A record is complete in DRAM. -/
def Dev.recComplete (d : Dev) (stop : Option Int) (r : Record) : Dev :=
  (d.setRec { d.acq with records := d.acq.records ++ [d.recFilled stop r] }).raise Ev.REC_DONE r.id

/-- Every channel's samples up to t_end have been reported, each source within its latency (R365, R368; DEDUCED, log entry 79). -/
def Dev.recAllIn (d : Dev) (r : Record) : Bool :=
  let lat := r.chans.foldl (fun m c => max m (d.srcLat c.src)) 0
  decide (r.ends / 2 ^ 32 + (ceilDiv (lat * 5) 8 : Nat) ≤ d.ctTicks)

/-- The oldest record whose window has ended is complete in DRAM. In SINGLE mode, or after rec.count records, the recorder disarms
with it; else AUTO re-arms in its slot. -/
def Dev.closeRecord (d : Dev) : Dev :=
  match d.acq.closing, d.acq.current with
  | r :: rs, _ =>
    if d.recAllIn r then
      let d := (d.setRec { d.acq with closing := rs }).recComplete none r
      if d.acq.armed then d else d.recDisarmed
    else d
  | [], some r =>
    if d.recAllIn r then
      let d := (d.setRec { d.acq with current := none }).recComplete none r
      if !d.acq.armed || d.acq.rearmAt.isNone then d.recDisarmed else d
    else d
  | [], none => d

/-- ABORT: the record in progress is closed with the samples before `stop`; those whose windows have ended complete as they are. -/
def Dev.abortRecord (d : Dev) (stop : Int) : Dev :=
  match d.acq.current with
  | some r =>
    if r.ends < stop then d.setRec { d.acq with current := none, closing := d.acq.closing ++ [r] }
    else (d.setRec { d.acq with current := none }).recComplete (some stop) r
  | none => d

/-- REC_DISARM and the disabling of the recorder at a modulation-cycle boundary (R372, R482). -/
def Dev.recBoundary (d : Dev) : Dev :=
  match d.acq.disarm with
  | none => d
  | some (c, abort) =>
    let stop := (d.ctTicks : Int) * 2 ^ 32
    let d := d.setRec { d.acq with disarm := none, armed := false }
    let d := if abort then (d.recGather.abortRecord stop).recDisarmed else d.recDisarmed
    d.complete c 0x00D1 (stRes Sc.DONE)

/-- The recorder is disabled: as REC_DISARM ABORT, its commands in flight completing with DISABLED. -/
def Dev.recDisable (d : Dev) : Dev :=
  let d := match d.acq.forced with
    | some (c, _) => (d.setRec { d.acq with forced := none }).complete c 0x00D2 (stRes Sc.DISABLED)
    | none => d
  let d := match d.acq.disarm with
    | some (c, _) => (d.setRec { d.acq with disarm := none }).complete c 0x00D1 (stRes Sc.DISABLED)
    | none => d
  ((d.setRec { d.acq with armed := false }).recGather.abortRecord ((d.ctTicks : Int) * 2 ^ 32)).recDisarmed

/-- Staging overflows by `n` samples: the oldest not yet taken are stored with tag 0x00 (R372). -/
def Dev.recLose (d : Dev) (n : Nat) : Dev :=
  let at_ := fun (x : Int × Nat) (y : Int × Nat) => decide (x.1 < y.1) || (x.1 == y.1 && decide (x.2 ≤ y.2))
  let all := d.acq.hist.flatMap fun (h : Nat × List RecSample) => (h.2.filter fun x => decide (d.acq.taken < x.t)).map fun x => (x.t, h.1)
  let gone := (sortBy at_ all).take n
  let d := d.setRec { d.acq with hist := d.acq.hist.map fun (h : Nat × List RecSample) =>
    (h.1, h.2.map fun x => if gone.contains (x.t, h.1) then { x with v := 0, raw := 0, tag := 0, ok := false } else x) }
  (d.setRec { d.acq with overflows := d.acq.overflows + 1 }).raise Ev.REC_OVERFLOW n

/-- A segment leaves the pool with a mapped-out page at byte `off` of it (R372). -/
def Dev.loseSegment (d : Dev) (seg off : Nat) : Dev :=
  let hit := fun (r : Record) =>
    match r.segs.idxOf? seg with
    | some j =>
      let size := d.segBytes - 64
      let lo := j * size + (off - 64)
      { r with damaged := true, holes := r.holes ++ [(lo, if off < 64 then 4096 + off - 64 else 4096)] }
    | none => r
  let d := d.setRec { d.acq with used := if d.acq.used.contains seg then d.acq.used else d.acq.used ++ [seg],
                                 current := d.acq.current.map hit, closing := d.acq.closing.map hit, records := d.acq.records.map hit }
  (d.setRec { d.acq with pagesLost := d.acq.pagesLost + 1 }).raise Ev.REC_PAGE_LOST seg

/-- The units take what their sources have reported (R361, R362): a fire whose slot has been decided is late. -/
def Dev.recFeed (d : Dev) : Dev := if d.acq.armed then (List.range 16).foldl Dev.feedUnit d.recGather else d

/-- The first undecided slot. -/
def Dev.undecided (d : Dev) : Nat := max d.acq.next ((d.ctTicks - d.acq.alignTicks) / 25)

end Sys2Proof.Machine
end

