-- ==== Sys2Proof/Machine/CtlLaws.lean ====
section
/-!
DEFINITION. Machine/CtlLaws.lean: the control laws of chapter 6 in FP32, in the order of the pseudocode (R189, R195 to
R214). One control cycle's laws are five law tasks in a fixed order (DESIGN CHOICE, log entry 50): measured quantities with the PLL or
the flux observer, outer loops with profiles and energy balancing, current control, circulating and DC current, arm
references.
-/
namespace Sys2Proof.Machine

open Sys2Proof

/-! ## FP32 helpers -/

def fInf : F32 := 0x7F800000#32
def fNegInf : F32 := 0xFF800000#32
def f2pi : F32 := 0x40C90FDB#32
def f3 : F32 := 0x40400000#32
def f1000 : F32 := 0x447A0000#32
def f1e6 : F32 := 0x49742400#32
/-- 0.57735027, and √3 / 2 to the same digits. -/
def fRt3 : F32 := f32ofRat 57735027 100000000
def fHalfRt3 : F32 := f32ofRat 8660254 10000000
def fSogi : F32 := f32ofRat 14142135 10000000

def fsq (x : F32) : F32 := f32mul x x
def fmag (v : Vec) : F32 := Config.fsqrt (f32add (fsq v.x) (fsq v.y))
def fsign (x : F32) : F32 := if f32lt x f0 then f32neg f1 else if f32lt f0 x then f1 else f0
/-- An angle brought to [0, 2π). -/
def wrap2pi (x : F32) : F32 := if f32le f2pi x then f32sub x f2pi else if f32lt x f0 then f32add x f2pi else x
/-- An angle brought to [−π, π). -/
def wrapPi (x : F32) : F32 :=
  let p := f32mul fHalf f2pi
  if f32le p x then f32sub x f2pi else if f32lt x (f32neg p) then f32add x f2pi else x

/-- α and β of three phases. -/
def clarke (p : Ph) : Vec := ⟨f32div (f32sub (f32sub (f32mul f2 p.a) p.b) p.c) f3, f32mul (f32sub p.b p.c) fRt3⟩
/-- Three phases of α and β. -/
def invClarke (v : Vec) : Ph :=
  let h := f32mul (f32neg fHalf) v.x
  let q := f32mul fHalfRt3 v.y
  ⟨v.x, f32add h q, f32sub h q⟩
/-- The Park transform (R199): x is d, y is q. -/
def park (th : F32) (v : Vec) : Vec :=
  let c := Config.fcos th
  let s := Config.fsin th
  ⟨f32add (f32mul c v.x) (f32mul s v.y), f32add (f32mul (f32neg s) v.x) (f32mul c v.y)⟩
def invPark (th : F32) (v : Vec) : Vec :=
  let c := Config.fcos th
  let s := Config.fsin th
  ⟨f32sub (f32mul c v.x) (f32mul s v.y), f32add (f32mul s v.x) (f32mul c v.y)⟩
def phOf (f : Nat → F32) : Ph := ⟨f 0, f 1, f 2⟩
end Sys2Proof.Machine

namespace Sys2Proof

open Sys2Proof.Machine

def Vec.add (a b : Vec) : Vec := ⟨f32add a.x b.x, f32add a.y b.y⟩
def Vec.scale (a : Vec) (k : F32) : Vec := ⟨f32mul a.x k, f32mul a.y k⟩

def Ph.get (p : Ph) (i : Nat) : F32 := if i = 0 then p.a else if i = 1 then p.b else p.c
/-- The sum of three, in their order. -/
def Ph.sum (p : Ph) : F32 := f32add (f32add p.a p.b) p.c

/-- One step of the SOGI pair (R199). -/
def Sogi.step (s : Sogi) (tw : F32) (u : Vec) : Sogi :=
  let ya := f32add s.ya (f32mul tw (f32sub (f32mul fSogi (f32sub u.x s.ya)) s.qa))
  let qa := f32add s.qa (f32mul tw ya)
  let yb := f32add s.yb (f32mul tw (f32sub (f32mul fSogi (f32sub u.y s.yb)) s.qb))
  let qb := f32add s.qb (f32mul tw yb)
  ⟨ya, qa, yb, qb⟩
def Sogi.pos (s : Sogi) : Vec := ⟨f32div (f32sub s.ya s.qb) f2, f32div (f32add s.qa s.yb) f2⟩
def Sogi.negSeq (s : Sogi) : Vec := ⟨f32div (f32add s.ya s.qb) f2, f32div (f32sub s.yb s.qa) f2⟩

/-- One step of the jerk-limited generator (R212). -/
def Profile.step (p : Profile) (V A J T : F32) : Profile :=
  let e := f32sub p.target p.x
  let jt := f32mul J T
  let jtt := f32mul J (fsq T)
  let jttt := f32mul J (f32mul (fsq T) T)
  if f32le (f32abs e) jttt && f32le (f32abs p.v) jtt && f32le (f32abs p.a) jt then { p with x := p.target, v := f0, a := f0 }
  else
    let D := f32abs e
    let aa := fsq A
    let vm := if f32le (f32div (f32mul aa A) (fsq J)) D then
        f32mul A (f32sub (Config.fsqrt (f32add (f32div aa (f32mul (f32mul (f32ofInt 4) J) J)) (f32div (f32mul f2 D) A))) (f32div A (f32mul f2 J)))
      else Config.fcbrt (f32mul (f32mul D D) J)
    let vd := f32mul (fsign e) (f32min V vm)
    let dv := f32sub vd p.v
    let ad := f32mul (fsign dv) (f32min A (Config.fsqrt (f32mul (f32mul f2 J) (f32abs dv))))
    let a := f32add p.a (f32clamp (f32sub ad p.a) (f32neg jt) jt)
    let v := f32clamp (f32add p.v (f32mul a T)) (f32neg V) V
    { p with x := f32add p.x (f32mul v T), v := v, a := a }

end Sys2Proof

namespace Sys2Proof.Machine

open Sys2Proof

/-! ## Times and modes -/

/-- T_ctl, T_out and T_mod in seconds. -/
def Dev.tCtl (d : Dev) : F32 := f32ofRat d.tCtlNs 1000000000
def Dev.tOut (d : Dev) : F32 := f32ofRat (d.tCtlNs * d.pn P.ctl_n_out) 1000000000
def Dev.isDrive (d : Dev) : Bool := d.pn P.ctl_app == 2
def Dev.isStatcom (d : Dev) : Bool := d.pn P.ctl_app == 1

/-- The profile channels in use (Table 06-5). -/
def Dev.profUsed (d : Dev) (c : Nat) : Bool :=
  match d.pn P.ctl_app, c with
  | 0, 0 => d.pn P.ctl_d_mode == 0
  | 0, 2 => d.pn P.ctl_d_mode == 1
  | 0, 1 | 1, 1 => d.pn P.ctl_q_mode == 0
  | 0, 3 | 1, 3 => d.pn P.ctl_q_mode == 1
  | 2, 4 => d.pn P.ctl_drv_mode == 0 || !d.ctl.laws.obsValid
  | 2, 5 => d.pn P.ctl_drv_mode == 1
  | _, _ => false

/-- The measured value of a channel (Table 06-5). -/
def Dev.profMeas (d : Dev) (l : LawState) (c : Nat) : F32 :=
  match c with
  | 0 => l.pm
  | 1 => l.qm
  | 2 => l.udcf
  | 3 => l.umag
  | 4 => l.wM
  | _ => f32mul (d.pf P.ctl_kt) l.ip.y

/-! ## PI blocks (R198, R217, R218) -/

/-- What a PI instance is asked for: error, feed-forward, limits, hold flag, the output it is preset to at a handover, and
whether its integrator runs in this control cycle. -/
structure PiIn where
  e : F32
  ff : F32 := f0
  lo : F32 := fNegInf
  hi : F32 := fInf
  hold : Bool := false
  want : Option F32 := none
  run : Bool := true
  deriving DecidableEq, Repr

/-- pi_step of instance `n`, phase or axis `i`, with period `T`: the laws, the output, and whether a preset was clamped. -/
def Dev.pi (d : Dev) (l : LawState) (n i : Nat) (T : F32) (q : PiIn) : LawState × F32 × Bool :=
  let key := 4 * n + i
  let lim := d.pfi P.ctl_xlim n
  let base := f32add q.ff (f32mul (d.pfi P.ctl_kp n) q.e)
  let (x, o, cl) : F32 × F32 × Bool := match q.want with
    | some w =>
      let x := f32sub w base
      let c := f32clamp x (f32neg lim) lim
      (c, f32sub x c, !f32eq x c)
    | none => (l.pi.get f0 key, l.ofs.get f0 key, false)
  let u := f32add base x
  let y := f32clamp u q.lo q.hi
  let grows := (f32lt q.hi u && f32lt f0 q.e) || (f32lt u q.lo && f32lt q.e f0)
  let x' := if q.run && !q.hold && !grows then
      f32clamp (f32add x (f32mul (f32mul (d.pfi P.ctl_ki n) T) q.e)) (f32neg lim) lim
    else x
  ({ l with pi := l.pi.set key x', ofs := l.ofs.set key o }, f32add y o, cl)

/-- Every offset of R218 moves towards 0. -/
def Dev.easeOffsets (d : Dev) (l : LawState) : LawState :=
  let st := f32mul (d.pf P.ctl_handover_rate) (f32ofRat d.tCtlNs 1000000)
  { l with ofs := l.ofs.map fun p => (p.1, if f32le (f32abs p.2) st then f0 else f32sub p.2 (f32mul (fsign p.2) st)) }

def Dev.clampEvent (d : Dev) (cl : Bool) : Dev := if cl then d.raise Ev.HANDOVER_CLAMP else d

/-! ## Law task 0: measured quantities, PLL or flux observer (R195, R199, R206) -/

/-- The PLL and the sequence extraction (R199). While the grid voltage is lost ω is held (R221); the deviation by which lock is
regained goes on (R223). -/
def Dev.lawPll (d : Dev) (r : LawRun) (l : LawState) : LawState :=
  let T := d.tCtl
  let i := clarke (phOf fun x => f32sub (r.inp.iArm.getD x f0) (r.inp.iArm.getD (3 + x) f0))
  let thN := l.th
  let l := { l with thP := thN }
  let l :=
    let tw := f32mul T l.w
    let su := l.su.step tw (clarke r.inp.ug)
    let p := su.pos
    let um := fmag p
    let eq := f32div (f32add (f32mul (f32neg (Config.fsin thN)) p.x) (f32mul (Config.fcos thN) p.y))
      (f32max um (f32mul (f32ofRat 5 100) (d.pf P.ctl_ug_nom_v)))
    let l := { l with su := su, eq := eq, umag := um }
    if r.hold && r.gridLost then { l with th := wrap2pi (f32add thN (f32mul l.w T)) }
    else
      let f := d.pf P.ctl_f_nom_hz
      let df := d.pf P.ctl_pll_df_hz
      let (l, w, _) := d.pi l 0 0 T
        { e := eq, ff := f32mul f2pi f, lo := f32mul f2pi (f32sub f df), hi := f32mul f2pi (f32add f df), hold := r.hold }
      { l with w := w, th := wrap2pi (f32add thN (f32mul w T)) }
  let si := l.si.step (f32mul T l.w) i
  { l with si := si, up := park thN l.su.pos, un := park (f32neg thN) l.su.negSeq, ip := park thN si.pos,
           im := park (f32neg thN) si.negSeq }

/-- The voltage commanded for the control cycle before the one that starts at `k` (R206): from the records sent for it, as R217
forms it (DEDUCED, log entry 129). -/
def Dev.lastVolts (d : Dev) (k : Nat) : Vec :=
  let u := fun (a : Nat) => match d.ctl.prevRec.find a, d.ctl.lastRec.find a with
    | some p, some l => f32ofRat (if l.c0 < k then l.u0 else p.u0) 100
    | none, some l => if l.c0 < k then f32ofRat l.u0 100 else f0
    | _, none => f0
  clarke (phOf fun x => f32div (f32sub (u (3 + x)) (u x)) f2)

/-- The flux observer (R206). In a hold the flux and the speed are held, and the angle turns with the last ω (R221). -/
def Dev.lawFlux (d : Dev) (r : LawRun) (l : LawState) : LawState :=
  let T := d.tCtl
  let i := clarke (phOf fun x => f32sub (r.inp.iArm.getD x f0) (r.inp.iArm.getD (3 + x) f0))
  let l : LawState := { l with vab := d.lastVolts r.k }
  if r.hold then
    let th := wrap2pi (f32add l.thE (f32mul l.wE T))
    { l with thE := th, thP := th, w := l.wE, up := ⟨f0, f32mul l.wE (fmag l.psi)⟩, un := {}, ip := park th i, im := {} }
  else
  let rs := f32div (d.pf P.ctl_rs_mohm) f1000
  let hp := f32mul f2pi (d.pf P.ctl_obs_hp_hz)
  let one := fun (psi v i : F32) => f32add psi (f32mul T (f32sub (f32sub v (f32mul rs i)) (f32mul hp psi)))
  let psi : Vec := ⟨one l.psi.x l.vab.x i.x, one l.psi.y l.vab.y i.y⟩
  let thO := Config.fatan2 psi.y psi.x
  let g := f32min f1 (f32mul (f32mul f2pi (d.pf P.ctl_obs_lp_hz)) T)
  let wO := f32add l.wO (f32mul (f32sub (f32div (wrapPi (f32sub thO l.thO)) T) l.wO) g)
  let fm := d.pf P.ctl_obs_fmin_hz
  let valid := if l.obsValid then !f32lt (f32abs wO) (f32mul f2pi fm)
    else f32le (f32mul (f32mul f2pi (f32ofRat 12 10)) fm) (f32abs wO)
  let pp := f32ofInt (d.pv P.ctl_pole_pairs)
  let wS := f32mul pp (l.prof.get {} 4).x
  let thE := if valid then thO else wrap2pi (f32add l.thE (f32mul wS T))
  let wE := if valid then wO else wS
  let wM := if d.pv P.ctl_spd_src = 0 then f32div wE pp else r.inp.wTacho
  { l with psi := psi, thO := thO, wO := wO, obsValid := valid, thE := thE, wE := wE, wM := wM, thP := thE, w := wE,
           up := ⟨f0, f32mul wE (fmag psi)⟩, un := {}, ip := park thE i, im := {} }

/-- Law task 0. -/
def Dev.law0 (d : Dev) (r : LawRun) : LawRun :=
  let l := d.easeOffsets r.laws
  let T := d.tCtl
  let inp := r.inp
  let lp := f32min f1 (f32mul (f32mul f2pi (d.pf P.ctl_udc_lp_hz)) T)
  let l := { l with udcf := f32add l.udcf (f32mul (f32sub inp.udc l.udcf) lp) }
  let ic := phOf fun x => f32div (f32add (inp.iArm.getD x f0) (inp.iArm.getD (3 + x) f0)) f2
  let idc := ic.sum
  let l := { l with iDc := idc, iz := phOf fun x => f32sub (ic.get x) (f32div idc f3), iArm := inp.iArm }
  let was := l.obsValid
  let l := if d.isDrive then d.lawFlux r l else d.lawPll r l
  let l :=
    if d.isDrive then
      let v := invClarke l.vab
      let ix := fun x => f32sub (inp.iArm.getD x f0) (inp.iArm.getD (3 + x) f0)
      { l with pm := (phOf fun x => f32mul (v.get x) (ix x)).sum, qm := f0 }
    else
      let k := f32ofRat 3 2
      { l with pm := f32mul k (f32add (f32mul l.up.x l.ip.x) (f32mul l.up.y l.ip.y)),
               qm := f32mul k (f32sub (f32mul l.up.y l.ip.x) (f32mul l.up.x l.ip.y)) }
  { r with laws := l, preset := r.preset || (d.isDrive && was != l.obsValid) }

/-! ## Profile generators (R212 to R214) -/

/-- The distance in which a profile stops from speed `v` (R214). -/
def stopDistance (v a j : F32) : F32 :=
  if f32le (f32div (fsq a) j) v then f32add (f32div (fsq v) (f32mul f2 a)) (f32div (f32mul v a) (f32mul f2 j))
  else f32mul v (Config.fsqrt (f32div v j))

/-- One outer cycle of channel `c`: the deviation from the measured value, soft start or jerk-limited step (R214). The
second part says that a soft start began. -/
def Dev.profOuter (d : Dev) (c : Nat) (p : Profile) (y : F32) : Profile × Bool :=
  let T := d.tOut
  let dev := f32lt (d.pfi P.ctl_prof_rebase c) (f32abs (f32sub p.x y))
  let n := if dev then p.devRun + 1 else 0
  let (p, began) := if 10 ≤ n then ({ p with x := y, v := f0, a := f0, soft := true, devRun := 0 }, true) else ({ p with devRun := n }, false)
  let V := d.pfi P.ctl_prof_v c
  let A := d.pfi P.ctl_prof_a c
  let J := d.pfi P.ctl_prof_j c
  if p.soft then
    let rate := d.pfi P.ctl_ss_rate c
    let e := f32sub p.target p.x
    let sp := f32mul (fsign e) rate
    if f32le (f32abs e) (stopDistance rate A J) then (({ p with soft := false, v := sp, a := f0 } : Profile).step V A J T, began)
    else ({ p with x := f32add p.x (f32mul sp T), v := sp, a := f0 }, began)
  else (p.step V A J T, began)

/-! ## Law task 1: outer loops and energy balancing (R203 to R205, R207) -/

/-- f̂ in Hz. -/
def Dev.lawHz (d : Dev) (l : LawState) : F32 := f32div (if d.isDrive then f32abs l.wE else l.w) f2pi

/-- û (R205). -/
def Dev.uHat (d : Dev) (l : LawState) : F32 := if d.isDrive then fmag l.vp else l.umag

/-- The mean of the newest `n` entries of arm `a`, summed oldest first. -/
def meanArm (hist : List (List F32)) (n a : Nat) : F32 :=
  let xs := ((hist.take n).map (·.getD a f0)).reverse
  f32div (xs.foldl f32add f0) (f32ofInt xs.length)

/-- Energy averages and the energy controllers at an outer cycle (R204, R205). -/
def Dev.lawEnergy (d : Dev) (r : LawRun) (l : LawState) : Dev × LawState :=
  let T := d.tOut
  let cnom := f32ofRat (d.pn P.mod_cap_nom_uf) 1000000
  let pe := d.pf P.ctl_pe_max_w
  let es := (List.range 6).map fun a =>
    f32div (f32mul (f32mul fHalf cnom) (fsq (r.inp.vArm.getD a f0))) (f32ofInt (r.inp.nUse.getD a 0))
  let l := if r.outer then { l with eHist := (es :: l.eHist).take (d.pn P.ctl_ma_max) } else l
  let fh := d.lawHz l
  let nma := if f32eq fh f0 then d.pn P.ctl_ma_max
    else min (d.pn P.ctl_ma_max) (max 1 (f32roundHalfUp 0 (f32div f1 (f32mul fh T))).toNat)
  let e := fun a => meanArm l.eHist nma a
  let eSum := ((List.range 6).map e).foldl f32add f0
  let ePh := phOf fun x => f32add (e x) (e (3 + x))
  let eDl := phOf fun x => f32sub (e x) (e (3 + x))
  let nu : Nat := r.inp.nUse.foldl (fun a b => a + b) 0
  let eRef := f32mul (f32mul (f32mul fHalf cnom) (f32ofInt nu)) (fsq (d.pf P.ctl_vcell_ref_v))
  let ud := f32max l.up.x (f32mul (f32ofRat 2 10) (d.pf P.ctl_ug_nom_v))
  let k := f32div f2 (f32mul f3 ud)
  let want := fun (v : F32) => if r.preset then some v else none
  let w10 := if d.isStatcom then f32div l.ip.x (f32neg k) else f32sub (f32mul l.iDc l.udcf) l.pm
  let (l, pS, c1) := d.pi l 10 0 T { e := f32sub eRef eSum, lo := f32neg pe, hi := pe, hold := r.hold || bitN l.holdPi 0, want := want w10, run := r.outer }
  let (l, ph, c2) : LawState × List F32 × Bool := (List.range 3).foldl (fun (l, ys, c) x =>
    let (l, y, c') := d.pi l 11 x T { e := f32sub (f32div eSum f3) (ePh.get x), lo := f32neg pe, hi := pe, hold := r.hold || bitN l.holdPi (1 + x),
                                      want := want (f32mul (l.iz.get x) l.udcf), run := r.outer }
    (l, ys ++ [y], c || c')) (l, [], false)
  let ph := phOf fun x => ph.getD x f0
  let m := f32div ph.sum f3
  let izdc := phOf fun x => f32div (f32sub (ph.get x) m) l.udcf
  let (l, pd, c3) : LawState × List F32 × Bool := (List.range 3).foldl (fun (l, ys, c) x =>
    let (l, y, c') := d.pi l 12 x T { e := f32neg (eDl.get x), lo := f32neg pe, hi := pe, hold := r.hold || bitN l.holdPi (4 + x),
                                      want := want f0, run := r.outer }
    (l, ys ++ [y], c || c')) (l, [], false)
  let pd := phOf fun x => pd.getD x f0
  let uh := d.uHat l
  let lam := if d.isDrive then l.lambda else f1
  let third := f32div f2pi f3
  let izac := phOf fun x =>
    if f32lt uh (f32mul (f32ofRat 5 100) (f32div l.udcf f2)) then f0
    else f32mul (f32mul (f32neg lam) (f32div (pd.get x) uh)) (Config.fcos (f32sub l.thP (f32mul third (f32ofInt x))))
  (d.clampEvent (c1 || c2 || c3), { l with pSum := pS, izDc := izdc, pDelta := pd, izAc := izac, eSum := eSum, ePh := ePh, eDl := eDl })

/-- The outer loops of R203 and R207. -/
def Dev.lawOuter (d : Dev) (r : LawRun) (l : LawState) : Dev × LawState :=
  let T := d.tOut
  let x := fun c => (l.prof.get {} c).x
  let want := fun (v : F32) => if r.preset then some v else none
  let imax := d.pf P.ctl_i_max_a
  if d.isDrive then
    if !l.obsValid then (d, { l with dq := ⟨d.pf P.ctl_start_i_a, f0⟩ })
    else if d.pv P.ctl_drv_mode = 0 then
      let lim := f32div (d.pf P.ctl_t_max_nm) (d.pf P.ctl_kt)
      if r.outer || r.preset then
        let (l, y, c) := d.pi l 13 0 T { e := f32sub (x 4) l.wM, lo := f32neg lim, hi := lim, hold := r.hold || l.holdQ, want := want l.ip.y, run := r.outer }
        (d.clampEvent c, { l with dq := ⟨d.pf P.ctl_id_mag, y⟩ })
      else (d, { l with dq := ⟨d.pf P.ctl_id_mag, l.dq.y⟩ })
    else (d, { l with dq := ⟨d.pf P.ctl_id_mag, f32div (x 5) (d.pf P.ctl_kt)⟩ })
  else if r.outer || r.preset then
    let ud := f32max l.up.x (f32mul (f32ofRat 2 10) (d.pf P.ctl_ug_nom_v))
    let k := f32div f2 (f32mul f3 ud)
    let nk := f32neg k
    let (l, id, c1) : LawState × F32 × Bool :=
      if d.isStatcom then (l, f32mul nk l.pSum, false)
      else if d.pv P.ctl_d_mode = 0 then
        let (l, y, c) := d.pi l 6 0 T { e := f32sub (x 0) l.pm, ff := x 0, hold := r.hold || l.holdD, want := want (f32div l.ip.x k), run := r.outer }
        (l, f32mul k y, c)
      else d.pi l 8 0 T { e := f32sub l.udcf (x 2), lo := f32neg imax, hi := imax, hold := r.hold || l.holdD, want := want l.ip.x, run := r.outer }
    let (l, iq, c2) : LawState × F32 × Bool :=
      if d.pv P.ctl_q_mode = 0 then
        let (l, y, c) := d.pi l 7 0 T { e := f32sub (x 1) l.qm, ff := x 1, hold := r.hold || l.holdQ, want := want (f32div l.ip.y nk), run := r.outer }
        (l, f32mul nk y, c)
      else
        let e := f32sub (f32sub (x 3) l.umag) (f32mul (f32div (d.pf P.ctl_uac_droop) f1000) l.qm)
        let (l, y, c) := d.pi l 9 0 T { e := e, hold := r.hold || l.holdQ, want := want (f32div l.ip.y nk), run := r.outer }
        (l, f32mul nk y, c)
    (d.clampEvent (c1 || c2), { l with dq := ⟨id, iq⟩ })
  else (d, l)

/-- The profiles at an outer cycle; a channel that becomes active starts from its measured value (R213). -/
def Dev.lawProfiles (d : Dev) (r : LawRun) (l : LawState) : Dev × LawState :=
  let auto := !d.ctl.host && d.mode.conv == .deblocked
  (List.range 6).foldl (fun (d, l) c =>
    let p := l.prof.get {} c
    let y := d.profMeas l c
    let use := auto && d.profUsed c
    if !use then (d, { l with prof := l.prof.set c { p with active := false, soft := false, devRun := 0 } })
    else if !p.active then (d, { l with prof := l.prof.set c { p with active := true, x := y, v := f0, a := f0, soft := false, devRun := 0 } })
    else if r.outer then
      let (p, began) := d.profOuter c p y
      (if began then d.raise Ev.CTL_PROF_REBASE c else d, { l with prof := l.prof.set c p })
    else (d, l)) (d, l)

/-- Law task 1. -/
def Dev.law1 (d : Dev) (r : LawRun) : Dev × LawRun :=
  let (d, l) := d.lawProfiles r r.laws
  let (d, l) := if r.outer || r.preset then d.lawEnergy r l else (d, l)
  let (d, l) := d.lawOuter r l
  (d, { r with laws := l })

/-! ## Law task 2: current references and current control (R201, R202) -/

/-- The arm voltage last sent for an arm, in volts. -/
def Dev.sentV (d : Dev) (a : Nat) : F32 := f32ofRat ((d.ctl.lastRec.find a).map (·.u0) |>.getD 0) 100

/-- The outgoing voltage and w of a handover (R217): from the records sent for this control cycle, at the angle for which
they were formed (DEDUCED, log entry 52). -/
def Dev.outgoing (d : Dev) (r : LawRun) (l : LawState) : Vec × Vec × Ph :=
  if r.entry then (if d.isDrive then ({}, {}, {}) else (l.up, l.un, {}))
  else
    let v := phOf fun x => f32div (f32sub (d.sentV (3 + x)) (d.sentV x)) f2
    let w := phOf fun x => f32sub (f32div l.udcf f2) (f32div (f32add (d.sentV x) (d.sentV (3 + x))) f2)
    let ofs := f32ofRat ((2 * d.depth + 1) * d.pn P.mod_t_mod_ns) 2000000000
    (park (f32add l.thP (f32mul l.w ofs)) (clarke v), {}, w)

/-- The limits of R202: the references, and the hold flags. -/
def Dev.limitRefs (d : Dev) (l : LawState) : LawState :=
  let imax := d.pf P.ctl_i_max_a
  let rest := fun (x : F32) => Config.fsqrt (f32sub (fsq imax) (fsq x))
  let r : Vec :=
    if d.pv P.ctl_i_prio = 1 then
      let q := f32clamp l.dq.y (f32neg imax) imax
      let m := rest q
      ⟨f32clamp l.dq.x (f32neg m) m, q⟩
    else
      let x := f32clamp l.dq.x (f32neg imax) imax
      let m := rest x
      ⟨x, f32clamp l.dq.y (f32neg m) m⟩
  let hd := !f32eq r.x l.dq.x
  let hq := !f32eq r.y l.dq.y
  { l with ref := r, holdD := hd, holdQ := hq,
           holdPi := maskOf 8 fun i => if i = 0 ∧ d.isStatcom = true then hd else bitN l.holdPi i }

/-- Law task 2. -/
def Dev.law2 (d : Dev) (r : LawRun) : Dev × LawRun :=
  let T := d.tCtl
  let l := d.limitRefs r.laws
  let due := match d.ctl.ilimAt with
    | some a => decide (a + ticksOfS 1 ≤ d.clk)
    | none => true
  let d := if (l.holdD || l.holdQ) && due then
      ({ d with ctl := { d.ctl with ilimAt := some d.clk } }).raise Ev.CTL_ILIMIT else d
  if r.hold then (d, { r with laws := l })
  else
    let L := if d.isDrive then f32div (d.pf P.ctl_l_s_uh) f1e6
      else f32div (f32add (f32div (d.pf P.ctl_l_arm_uh) f2) (d.pf P.ctl_l_grid_uh)) f1e6
    let wl := f32mul l.w L
    let hv := l.satV || l.clamped != 0
    let (op, on, _) := d.outgoing r l
    let want := fun (v : F32) => if r.preset || r.presetI then some v else none
    let (l, vdp, c1) := d.pi l 1 0 T { e := f32sub l.ref.x l.ip.x, ff := f32sub l.up.x (f32mul wl l.ip.y), hold := hv, want := want op.x }
    let (l, vqp, c2) := d.pi l 2 0 T { e := f32sub l.ref.y l.ip.y, ff := f32add l.up.y (f32mul wl l.ip.x), hold := hv, want := want op.y }
    let (l, vdn, vqn, c3) : LawState × F32 × F32 × Bool :=
      if d.isDrive then (l, f0, f0, false)
      else
        let (l, a, c) := d.pi l 3 0 T { e := f32sub f0 l.im.x, ff := f32add l.un.x (f32mul wl l.im.y), hold := hv, want := want on.x }
        let (l, b, c') := d.pi l 3 1 T { e := f32sub f0 l.im.y, ff := f32sub l.un.y (f32mul wl l.im.x), hold := hv, want := want on.y }
        (l, a, b, c || c')
    let vp : Vec := ⟨vdp, vqp⟩
    let vn : Vec := ⟨vdn, vqn⟩
    let vlim := f32div (f32mul (d.pf P.ctl_m_max) l.udcf) f2
    let sum := f32add (fmag vp) (fmag vn)
    let sat := f32lt vlim sum
    let k := f32div vlim sum
    let l := { l with vp := if sat then vp.scale k else vp, vn := if sat then vn.scale k else vn, satV := sat }
    (d.clampEvent (c1 || c2 || c3), { r with laws := l })

/-! ## Law task 3: circulating and DC current (R208, R209), identification pulses (R226) -/

/-- sq at a phase in periods: period start at the middle of the rising edge, edges of 10 % of a half-period (R208). -/
def sqWave (x : F32) : F32 :=
  let e := f32ofRat 25 1000
  let h := fHalf
  if f32lt x e then f32div x e
  else if f32le x (f32sub h e) then f1
  else if f32lt x (f32add h e) then f32div (f32sub h x) e
  else if f32le x (f32sub f1 e) then f32neg f1
  else f32div (f32sub x f1) e

/-- A phase brought to [0, 1). -/
def frac1 (x : F32) : F32 := f32sub x (f32ofInt (f32floor 0 x))

/-- λ and the common-mode wave of a control cycle (R208). -/
def Dev.lawCm (d : Dev) (l : LawState) : LawState :=
  if !d.isDrive then { l with lambda := f1, cmOn := false, vcm := f0 }
  else
    let fc := d.pf P.ctl_cm_fmax_hz
    let lam := f32clamp (f32div (f32sub (d.lawHz l) fc) (f32mul (f32ofRat 25 100) fc)) f0 f1
    let low := f32lt lam f1
    let adv := f32add l.cmPhase (f32mul l.cmHz d.tCtl)
    let half := (f32lt l.cmPhase fHalf && f32le fHalf adv) || f32le f1 adv
    let start := if !l.cmOn then low else f32le f1 adv && low
    let stop := l.cmOn && half && !low
    let l := { l with lambda := lam }
    if start then
      { l with cmOn := true, cmHz := d.pf P.ctl_cm_hz, cmV := d.pf P.ctl_cm_v, cmPhase := if l.cmOn then frac1 adv else f0,
               vcm := f32mul (d.pf P.ctl_cm_v) (sqWave (if l.cmOn then frac1 adv else f0)) }
    else if stop then { l with cmOn := false, cmPhase := f0, vcm := f0 }
    else if l.cmOn then { l with cmPhase := frac1 adv, vcm := f32mul l.cmV (sqWave (frac1 adv)) }
    else l

/-- i_zlf,x* (R208): on the plateaus while the injection runs with a voltage. -/
def Dev.izLf (l : LawState) (x : Nat) (ix : F32) : F32 :=
  let sq := sqWave l.cmPhase
  if !l.cmOn || f32eq l.cmV f0 || !f32eq (f32abs sq) f1 then f0
  else f32mul (f32sub f1 l.lambda)
    (f32sub (f32div (f32mul l.udcf ix) (f32mul (f32ofInt 4) l.vcm)) (f32div (f32mul sq (l.pDelta.get x)) (f32mul f2 l.cmV)))

/-- The circulating-current controller of a phase. -/
def Dev.lawPhase (d : Dev) (r : LawRun) (wants : Ph) (pulse : Bool) (l : LawState) (x : Nat) : LawState × F32 × Bool :=
  let T := d.tCtl
  let W := f32mul (f32div (d.pf P.ctl_w_max_pct) (f32ofInt 100)) l.udcf
  let ix := f32sub (r.inp.iArm.getD x f0) (r.inp.iArm.getD (3 + x) f0)
  let im := d.pf P.ctl_iz_max_a
  let raw := f32add (f32add (l.izDc.get x) (l.izAc.get x)) (Dev.izLf l x ix)
  let ref := f32clamp raw (f32neg im) im
  let e := f32sub ref (l.iz.get x)
  let hz := bitN l.clamped x || bitN l.clamped (3 + x)
  let wh := f32mul f2 l.w
  let res := !d.isDrive || f32le (f32ofInt 10) (f32mul f2 (d.lawHz l))
  let run := res && !hz && !r.hold && !pulse
  let (a, b) : F32 × F32 := if r.preset then (f0, f0) else (l.r1.get x, l.r2.get x)
  let r1 := if run then f32add a (f32mul T (f32sub (f32mul (d.pf P.ctl_kr_z) e) (f32mul wh b))) else a
  let r2 := if run then f32add b (f32mul (f32mul T wh) r1) else b
  let (l, y, c) := d.pi l 4 x T { e := e, ff := r1, lo := f32neg W, hi := W, hold := hz || pulse || r.hold, want := if r.preset || r.presetI then some (wants.get x) else none }
  let up := f32lt im raw || f32le W y
  let down := f32lt raw (f32neg im) || f32le y (f32neg W)
  let carrier := Config.fcos (f32sub l.thP (f32mul (f32div f2pi f3) (f32ofInt x)))
  let l := { l with r1 := phOf fun i => if i = x then r1 else l.r1.get i, r2 := phOf fun i => if i = x then r2 else l.r2.get i,
                    izRef := phOf fun i => if i = x then ref else l.izRef.get i,
                    holdPi := maskOf 8 fun i => if i = 1 + x then up
                      else if i = 4 + x then (up && f32lt carrier f0) || (down && f32lt f0 carrier) else bitN l.holdPi i }
  (l, y, c)

/-- Law task 3. -/
def Dev.law3 (d : Dev) (r : LawRun) : Dev × LawRun :=
  let T := d.tCtl
  let l := d.lawCm r.laws
  let W := f32mul (f32div (d.pf P.ctl_w_max_pct) (f32ofInt 100)) l.udcf
  let (_, _, wOut) := d.outgoing r l
  let w0want := if d.isStatcom then f0 else f32div wOut.sum f3
  let pulse := d.ctl.ident.isSome
  let iref := f32div (f32add l.pm l.pSum) l.udcf
  let l := { l with iDcRef := iref }
  let (l, ws, c) : LawState × List F32 × Bool := (List.range 3).foldl (fun (l, ws, c) x =>
    let (l, y, c') := d.lawPhase r (phOf fun i => f32sub (wOut.get i) w0want) pulse l x
    (l, ws ++ [y], c || c')) (l, [], false)
  let (l, w0, c') : LawState × F32 × Bool :=
    if d.isStatcom then (l, f0, false)
    else d.pi l 5 0 T { e := f32sub iref l.iDc, lo := f32neg W, hi := W, hold := l.clamped != 0 || r.hold, want := if r.preset || r.presetI then some w0want else none }
  let l := { l with holdPi := maskOf 8 fun i => if i = 0 ∧ d.isStatcom = false then f32le W w0 else bitN l.holdPi i }
  let wx := if r.hold then l.wx else phOf fun x => f32add (f32add w0 (ws.getD x f0)) (d.ctl.idPulse.get x)
  (d.clampEvent (c || c'), { r with laws := { l with wx := wx } })

/-! ## Law task 4: arm references (R210, R211) -/

/-- A binary64 quotient rounded half up to an integer, none when it is no number of 32 bits. -/
def roundHalfUp64 (x : BitVec 64) : Option Int :=
  if (x.toNat >>> 52) % 2048 = 2047 then none
  else
    let n := f64floor 0 (f64add x 0x3FE0000000000000#64)
    if -2147483648 ≤ n ∧ n ≤ 2147483647 then some n else none

/-- 0.01 in binary64. -/
def f64cent : BitVec 64 := 0x3F847AE147AE147B#64

/-- The unclamped arm references at an angle (R210), upper arms first, with the α and β components. -/
def Dev.armVolts (d : Dev) (l : LawState) (th vcm : F32) : List F32 × Vec :=
  let ab := invPark th l.vp
  let ab := if d.isDrive then ab else ab.add (invPark (f32neg th) l.vn)
  let v := invClarke ab
  let h := f32div l.udcf f2
  ((List.range 6).map fun i =>
    let x := i % 3
    let vx := f32add (v.get x) vcm
    f32sub (if i < 3 then f32sub h vx else f32add h vx) (l.wx.get x), ab)

/-- Law task 4: the records of the control cycle. A reference that is no number of the record's format is an open value. -/
def Dev.law4 (d : Dev) (r : LawRun) : Dev × LawRun :=
  let l := r.laws
  let n := d.pn P.ctl_n_ctl
  let ofs := f32ofRat ((2 * n + 2 * d.depth + 1) * d.pn P.mod_t_mod_ns) 2000000000
  let th1 := f32add l.thP (f32mul l.w ofs)
  let th2 := f32add th1 (f32mul l.w d.tCtl)
  let cm := fun (t : F32) => if l.cmOn then f32mul l.cmV (sqWave (frac1 (f32add l.cmPhase (f32mul l.cmHz t)))) else f0
  let (u1, _) := d.armVolts l th1 (cm ofs)
  let (u2, _) := d.armVolts l th2 (cm (f32add ofs d.tCtl))
  let lim := fun (a : Nat) (u : F32) =>
    let hi := f32mul (d.pf P.ctl_m_max) (r.inp.vArm.getD a f0)
    let lo := if d.pv P.mod_cell_mix = 0 then f0
      else f32div (f32mul (f32neg hi) (f32ofInt (r.inp.nFb.getD a 0))) (f32ofInt (max 1 (r.inp.nUse.getD a 0)))
    f32clamp u lo hi
  let s := (List.range 6).map fun a => lim a (u1.getD a f0)
  let e := (List.range 6).map fun a => lim a (u2.getD a f0)
  let cl := maskOf 6 fun a => !f32eq (s.getD a f0) (u1.getD a f0) || !f32eq (e.getD a f0) (u2.getD a f0)
  let cmd := if d.mode.conv = .deblocked ∧ !d.ctl.block then 0 else 2
  let (d, recs) := (List.range 6).foldl (fun (acc : Dev × List RefRec) a =>
    let (d, rs) := acc
    let us := f64of32 (s.getD a f0)
    let ue := f64of32 (e.getD a f0)
    let du := f64div (f64mul (f64add ue (f64neg us)) 0x4070000000000000#64) (f64mul f64cent (BitVec.ofNat 64 (fmt64.enc false n 0)))
    let (d, u0) : Dev × Int := match roundHalfUp64 (f64div us f64cent) with
      | some v => (d, v)
      | none => (d.drawn, (d.freeVal 32).toInt)
    let (d, q) : Dev × Int := match roundHalfUp64 du with
      | some v => (d, v)
      | none => (d.drawn, (d.freeVal 32).toInt)
    (d, rs ++ [RefRec.mk (r.k + n) n a cmd u0 q])) (d, [])
  (d, { r with laws := { l with u := s, clamped := cl }, recs := recs })

end Sys2Proof.Machine
end

