-- ==== Sys2Proof/Machine/ModeOps.lean ====
section
/-!
DEFINITION. Machine/ModeOps.lean: the converter state as the device holds it and as the lead changes it (R476 to R480,
R551): state units and their apply cycles, acknowledgements, the lead's decision, block requests.
-/
namespace Sys2Proof.Machine

open Sys2Proof

/-! ## Codes (Table 16-3) -/

def convCode : Conv → Nat
  | .deEnergised => 0
  | .charging => 1
  | .blocked => 2
  | .deblocked => 3
  | .faultBlocked => 4
def convOf (n : Nat) : Option Conv := [Conv.deEnergised, .charging, .blocked, .deblocked, .faultBlocked][n]?
def powerCode : Power → Nat
  | .run => 0
  | .idle => 1
  | .rest => 2
def testCode : Test → Nat
  | .none => 0
  | .simcell => 1
  | .selftest => 2
def testOf (n : Nat) : Option Test := [Test.none, .simcell, .selftest][n]?

/-! ## Units of kind EVENT (R271, R476) -/

/-- A unit of one block and kind EVENT, to one device or broadcast. -/
def Dev.eventUnit (d : Dev) (dest : Option Nat) (b : FabBody) : Dev := d.sendUnit false 2 dest 64 b

/-- A state unit kept until its apply cycle; one for the same axis and cycle takes the place of the other. -/
def Dev.takeUnit (d : Dev) (u : StateUnit) : Dev :=
  let rest := d.mode.units.filter fun x => !(x.apply == u.apply && x.conv.isSome == u.conv.isSome)
  { d with mode := { d.mode with units := rest ++ [u] } }

/-- The lead announces a transition or a test mode (R476, R481). -/
def Dev.announce (d : Dev) (u : StateUnit) : Dev :=
  (d.takeUnit u).eventUnit none (.stateUnit ⟨u.conv.map convCode, u.test.map testCode, u.apply, u.cause⟩)

/-! ## Members (R551) -/

/-- This device's members. -/
def Dev.members (d : Dev) : List Member :=
  ([0, 1, 2].filterMap fun g =>
    let a := d.pni P.mod_pg_arm g
    if a < 6 then some (a, d.pni P.mod_pg_segidx g, d.letterB) else none).eraseDups

/-- The expected set, in the order of arm, segment index and twin letter. -/
def Dev.expected (d : Dev) : List Member :=
  (List.range 6).flatMap fun a => (List.range (d.nSeg a)).flatMap fun s =>
    (a, s, false) :: (if bitN (d.pni P.mode_arm_duplex a) s then [(a, s, true)] else [])

/-- A member within mode.arm_nseg, its twin letter within mode.arm_duplex. -/
def Dev.memberOk (d : Dev) (m : Member) : Bool :=
  decide (m.1 < 6) && decide (m.2.1 < d.nSeg m.1) && (!m.2.2 || bitN (d.pni P.mode_arm_duplex m.1) m.2.1)

/-! ## Acknowledgements (R478) -/

/-- What this device itself finds of the settings that R263, R298, R300 and R551 require. -/
def Dev.cfgFits (d : Dev) : Bool :=
  (d.arms.all fun a => d.duplex == bitN (d.pni P.mode_arm_duplex a) (d.segIn a))
    && (List.range 4).all fun p => !d.portEnabled p || (d.pni P.fab_rate p == 0
      && [2 * p, 2 * p + 1].all fun n => !(d.lane n).long && (d.lane n).stage != .cdr && (d.lane n).stage != .hello)

/-- What every device of the converter holds alike: roles, time root, segments (R21, R355, R551). -/
def convShared : List (Nat × Nat) :=
  [(P.mode_arm_lead_seg, 6), (P.mode_lead_arm, 1), (P.mode_lead_seg, 1), (P.time_root_arm, 1), (P.time_root_seg, 1),
    (P.mode_arm_nseg, 6), (P.mode_arm_duplex, 6)]

/-- What the devices of one arm hold alike (R84). -/
def armShared : List (Nat × Nat) :=
  [(P.mod_cell_mix, 1), (P.mod_t_mod_ns, 1), (P.mod_depth, 1), (P.mod_fibre_max_m, 1), (P.mod_frac_mode, 1), (P.mod_min_pulse_ns, 1),
    (P.mod_dly_max_ns, 1), (P.mod_n_min, 1), (P.mod_n_fb_min, 1), (P.mod_band_mv, 1), (P.mod_band_mode, 1), (P.mod_band_min_mv, 1),
    (P.mod_band_max_mv, 1), (P.mod_spread_lim_mv, 1), (P.mod_band_win, 1)]

/-- What the twins of a segment hold alike (R129, R327, Table 04-13), and those of the converter lead (R230). -/
def twinShared : List (Nat × Nat) := (paramTable.filter fun p => p.mustEqual && p.id / 4096 != 6).map fun p => (p.id, p.count)
def leadShared : List (Nat × Nat) := (paramTable.filter fun p => p.mustEqual && p.id / 4096 == 6).map fun p => (p.id, p.count)

def Dev.sharedOf (d : Dev) (l : List (Nat × Nat)) : List Int := l.flatMap fun x => (List.range x.2).map (d.pvi x.1)

/-- The REF settings of a chain in meas.ref_follow; none of another chain (Table 04-13; which rows they are is DEDUCED,
DESIGN CHOICE, log entry 53). -/
def Dev.refShared (d : Dev) (m : Nat) : List Int :=
  if bitN (d.pn P.meas_ref_follow) m then
    [(bit01 (bitN (d.pn P.meas_ref_enable) m) : Int), (bit01 (bitN (d.pn P.meas_ref_align) m) : Int), d.pvi P.meas_mclk_rate (m / 4)]
      ++ [P.meas_ref_preset, P.meas_ref_slot, P.meas_ref_fs, P.meas_ref_ofs, P.meas_ref_skew_ns, P.meas_ref_dph].map (d.pvi · m)
  else []

/-- The shared values in the order converter, arm, twins, lead twins, REF chains 0 to 7. -/
def Dev.shared (d : Dev) : List (List Int) :=
  [convShared, armShared, twinShared, leadShared].map d.sharedOf ++ (List.range 8).map d.refShared

/-- Two acknowledgements agree in what their devices must share, and no two devices claim one member (R21, R35, R84, R129,
R230, R327, R355, R551). -/
def Dev.sharedAgree (d : Dev) (a b : AckMsg) : Bool :=
  let same := fun (i : Nat) => a.params.getD i [] == b.params.getD i []
  let both := fun (f : Member → Member → Bool) => a.members.any fun x => b.members.any (f x)
  let twins := fun (x y : Member) => x.1 == y.1 && x.2.1 == y.2.1 && x.2.2 != y.2.2
  let lead := fun (x y : Member) => twins x y && x.1 == d.pn P.mode_lead_arm && x.2.1 == d.pn P.mode_lead_seg
  a.addr == b.addr || (same 0 && (!(both fun x y => x.1 == y.1) || same 1)
    && (!both twins || (same 2 && (List.range 8).all fun m => same (4 + m))) && (!both lead || same 3)
    && !(both fun x y => x == y))

/-- The own acknowledgement of a state unit. -/
def Dev.ownAck (d : Dev) (apply : Nat) : AckMsg :=
  { addr := d.addr, members := d.members, power := powerCode d.mode.power, causes := d.mode.causes, ctValid := d.tim.ctValid,
    cfgOk := d.cfgFits, params := d.shared, apply := apply }

/-- An acknowledgement kept by a lead twin for its pending transition. -/
def Dev.keepAck (d : Dev) (a : AckMsg) : Dev :=
  match d.mode.trans with
  | some x => if x.apply = a.apply then
      { d with mode := { d.mode with acks := d.mode.acks.filter (fun b => b.addr != a.addr) ++ [a] } } else d
  | none => d

/-- The acknowledgement sent to both twins of the lead; a lead twin keeps its own. -/
def Dev.acknowledge (d : Dev) (apply : Nat) : Dev :=
  let a := d.ownAck apply
  let d := if d.convLead then d.keepAck a else d
  d.leadAddrs.foldl (fun d x => d.eventUnit (some x) (.acknowledge a)) d

/-! ## Transitions at the lead (Table 15-2, R478) -/

/-- Table 15-2, for CONV_STATE. -/
def transitionAllowed : Conv → Conv → Bool
  | .deEnergised, .charging | .charging, .blocked | .blocked, .deblocked | .deblocked, .blocked | .faultBlocked, .blocked
  | .charging, .deEnergised | .blocked, .deEnergised | .faultBlocked, .deEnergised => true
  | _, _ => false

/-- The first control-cycle boundary at or after instant `at_` (R478). -/
def Dev.ctlBoundaryFrom (d : Dev) (at_ : Nat) : Nat :=
  let n := max 1 (d.pn P.ctl_n_ctl)
  let k := d.cyc.k + ceilDiv (at_ - d.cyc.tk) (max 1 d.tModTicks)
  ceilDiv k n * n

/-- What an acknowledgement must hold for a transition (Table 15-2, R84, R129, R230, R263, R298, R300, R327, R341, R355,
R551). -/
def Dev.ackMeets (d : Dev) (a : AckMsg) (frm dest : Conv) : Bool :=
  match frm, dest with
  | .deEnergised, .charging =>
    a.power == 0 && ((List.range 16).all fun i => i == 0 || i == 12 || !bitN a.causes i) && a.ctValid && a.cfgOk
      && a.members.all d.memberOk && d.mode.acks.all (d.sharedAgree a)
  | .blocked, .deblocked => a.power == 0 && a.causes % 65536 == 0
  | .faultBlocked, .blocked => a.causes % 65536 == 0
  | _, _ => true

/-- Every arm's last measurement record meets `f`; an arm without one fails (R194). -/
def Dev.armsMeet (d : Dev) (f : ArmMeas → Bool) : Bool :=
  (List.range 6).all fun a => match d.ctl.meas.find a with
    | some r => f r
    | none => false

/-- The mean v_pred of an arm's cells is at most mode.deen_max_v, or no port of it is in RUN: from the arm's last record,
whose voltage sum and count are those of its usable cells, or from the own ports (DEDUCED, log entry 56). -/
def Dev.discharged (d : Dev) (a : Nat) : Bool :=
  let lim := f32floor 40 (d.pf P.mode_deen_max_v)
  match d.ctl.meas.find a with
  | some r => decide ((r.vSum : Int) * 2 ^ 40 ≤ 100 * lim * r.nUse) || r.nUse == 0
  | none => d.arms.contains a && (d.cellsOf a).all fun p => (d.port p).stage != .run

/-- A REF chain that the laws use is followed by the standby (R196). -/
def Dev.followed (d : Dev) (c : Nat) : Bool := decide (8 ≤ c) || bitN (d.pn P.meas_ref_follow) c

/-- Every named role has a segment that is configured in its arm (R21). -/
def Dev.rolesPlaced (d : Dev) : Bool :=
  (List.range 6).all (fun a => decide (d.pni P.mode_arm_lead_seg a < d.nSeg a))
    && decide (d.pn P.mode_lead_seg < d.nSeg (d.pn P.mode_lead_arm)) && decide (d.pn P.time_root_seg < d.nSeg (d.pn P.time_root_arm))

/-- The converter-wide part of the condition of Table 15-2. -/
def Dev.leadMeets (d : Dev) (frm dest : Conv) : Bool :=
  match frm, dest with
  | .deEnergised, .charging =>
    d.mode.test != .selftest && d.rolesPlaced
      && (!d.duplex || d.isDrive || ([d.pni P.ctl_src_ug 0, d.pni P.ctl_src_ug 1, d.pni P.ctl_src_ug 2].all d.followed))
      && (!d.duplex || d.followed (d.pn P.ctl_src_udc))
  | .charging, .blocked =>
    let v := f32floor 40 (d.pf P.ctl_vcell_ref_v)
    d.armsMeet fun r => decide (1 ≤ r.nUse) && decide ((d.pn P.mode_chg_min_pct : Int) * v * r.nUse ≤ (r.vSum : Int) * 2 ^ 40)
  | .blocked, .deblocked =>
    (d.isDrive || d.ctl.locked)
      && d.armsMeet fun r => decide (d.pn P.mod_n_min ≤ r.nUse) && (d.pv P.mod_cell_mix == 0 || decide (d.pn P.mod_n_fb_min ≤ r.nFb))
  | .charging, .deEnergised | .blocked, .deEnergised | .faultBlocked, .deEnergised => (List.range 6).all d.discharged
  | _, _ => true

/-- The first member that makes the lead cancel (R478): the lowest device address among those that answered and fail, then
the first member without an acknowledgement; the lead itself when the converter-wide part fails. Event bytes (DESIGN CHOICE, log entry
57): address, cause mask, member as arm [2:0], segment [6:3], twin [7], and bit 0 for no answer. -/
def Dev.failing (d : Dev) (x : Transition) : Option (List Byte) :=
  let arg := fun (addr causes : Nat) (m : Member) (quiet : Bool) =>
    bytesLE 2 addr ++ bytesLE 2 causes ++ [BitVec.ofNat 8 (m.1 + 8 * m.2.1 + 128 * bit01 m.2.2), BitVec.ofNat 8 (bit01 quiet)]
  let meets := fun (a : AckMsg) => x.test.isSome || d.ackMeets a d.mode.conv x.target
  let bad := (d.mode.acks.filter fun a => !meets a).foldl (fun (b : Option AckMsg) a => match b with
    | some c => if a.addr < c.addr then some a else b
    | none => some a) none
  match bad with
  | some a => some (arg a.addr a.causes (a.members.headD (0, 0, false)) false)
  | none => match d.expected.find? (fun m => !d.mode.acks.any fun a => a.members.contains m) with
    | some m => some (arg 0 0 m true)
    | none =>
      if x.test.isSome || d.leadMeets d.mode.conv x.target then none
      else some (arg d.addr d.mode.causes (d.members.headD (0, 0, false)) false)

/-- The pending units of an apply cycle dropped. -/
def Dev.dropUnits (d : Dev) (apply : Nat) : Dev :=
  { d with mode := { d.mode with units := d.mode.units.filter fun u => u.apply != apply || u.conv == some .faultBlocked } }

/-- A transition that has been announced is cancelled by a cancel unit (R478). -/
def Dev.cancel (d : Dev) (x : Transition) (cause : Nat) (arg : List Byte) : Dev :=
  let d := { d.dropUnits x.apply with mode := { (d.dropUnits x.apply).mode with trans := none, acks := [] } }
  if x.mine then (d.eventUnit none (.cancel x.apply cause)).raiseB Ev.MODE_CONV_CANCEL arg else d

/-- Step 4 and 5 of R478, at t_ca − 5 µs: the transition stands, or is cancelled. -/
def Dev.decideTransition (d : Dev) : Dev :=
  match d.mode.trans with
  | none => d
  | some x =>
    if !x.agreed || x.decided then d
    else match d.failing x with
      | none => { d with mode := { d.mode with trans := some { x with decided := true } } }
      | some arg => d.cancel x (natLE ((arg.drop 2).take 2)) arg

/-- Step 2 of R478, once the lead's twin agrees: the apply cycle is named, the state unit sent, the command complete. -/
def Dev.transitionAgreed (d : Dev) : Dev :=
  match d.mode.trans with
  | none => d
  | some x =>
    if x.agreed then d
    else
      let ca := d.ctlBoundaryFrom (d.clk + ticksOfUs 60)
      let op := if x.test.isSome then 0x0012 else 0x0010
      let d := { d with mode := { d.mode with trans := some { x with agreed := true, apply := ca, cmd := none }, acks := [] } }
      let d := d.announce ⟨if x.test.isSome then none else some x.target, x.test, ca, x.cause⟩
      let d := match x.cmd with
        | some c => d.complete c op ⟨Sc.DONE, wordsBytes [ca % 2 ^ 32, ca / 2 ^ 32], []⟩
        | none => d
      d.acknowledge ca

/-! ## Block requests at the lead (R478, R479) -/

/-- A block request arrives at a lead twin: a pending transition is cancelled. -/
def Dev.requestArrives (d : Dev) (m : BlockMsg) : Dev :=
  let new : Bool := !d.mode.reqs.any (fun r => r.1 == m.src && r.2.1 == m.bit)
  let d := if new then { d with mode := { d.mode with reqs := d.mode.reqs ++ [(m.src, m.bit, m.kr)] } } else d
  match d.mode.trans with
  | none => d
  | some x =>
    if x.agreed then
      d.cancel x (2 ^ m.bit) (bytesLE 2 m.src ++ bytesLE 2 (2 ^ m.bit) ++ [0, 0])
    else
      let d := { d with mode := { d.mode with trans := none },
                        ctl := { d.ctl with waits := d.ctl.waits.filter fun w => w.cmd != x.cmd || x.cmd.isNone } }
      match x.cmd with
      | some c => d.complete c (if x.test.isSome then 0x0012 else 0x0010) (stRes Sc.STATE)
      | none => d

/-- The control cycle `kj` acts on a request of cycle `kr` (R479): t_kj + 2.0 µs ≥ t_kr + T_mod + 21 µs. -/
def Dev.requestDue (d : Dev) (kj kr : Nat) : Bool :=
  decide ((kr + 1) * d.pn P.mod_t_mod_ns + 19000 ≤ kj * d.pn P.mod_t_mod_ns)

/-- In control cycle `kj` a lead twin acts on the requests that are due: BLOCK records from c0 on, and FAULT_BLOCKED
announced with apply cycle c0. In DE-ENERGISED they cause no transition. -/
def Dev.actOnRequests (d : Dev) (kj : Nat) : Dev :=
  let due := d.mode.reqs.filter fun r => d.requestDue kj r.2.2
  if due.isEmpty then d
  else
    let d := { d with mode := { d.mode with reqs := d.mode.reqs.filter fun r => !d.requestDue kj r.2.2 } }
    let live := d.mode.conv == .charging || d.mode.conv == .blocked || d.mode.conv == .deblocked
    if live && !(d.mode.units.any fun u => u.conv == some .faultBlocked) then
      let mask := maskOf 16 fun i => due.any fun r => r.2.1 == i
      ({ d with ctl := { d.ctl with block := true } }).announce ⟨some .faultBlocked, none, kj + d.pn P.ctl_n_ctl, mask⟩
    else d

/-- The converter state in force at cycle `c0`, with every transition named whose apply cycle lies at or before it
(R480). -/
def Dev.convAt (d : Dev) (c0 : Nat) : Conv :=
  (d.mode.units.foldl (fun (b : Conv × Nat) u => match u.conv with
    | some v => if u.apply ≤ c0 ∧ b.2 ≤ u.apply then (v, u.apply) else b
    | none => b) (d.mode.conv, 0)).1

end Sys2Proof.Machine
end

