-- ==== Sys2Proof/Machine/Params.lean ====
section
/-!
DEFINITION. Machine/Params.lean: the parameter commands but PARAM_COMMIT (R403 to R405, R407, R408, Tables 12-10, 12-11).
-/
namespace Sys2Proof.Machine

open Sys2Proof

/-- The type code of Table 12-11. -/
def ParamType.code : ParamType → Nat
  | .u8 => 1 | .u16 => 2 | .u32 => 3 | .s8 => 4 | .s16 => 5 | .s32 => 6 | .f32 => 7 | .enum => 8 | .bitmap _ => 9

/-- Bytes per element. -/
def ParamType.bytes : ParamType → Nat
  | .u8 | .s8 | .enum => 1
  | .u16 | .s16 => 2
  | .u32 | .s32 | .f32 => 4
  | .bitmap n => ceilDiv n 8

/-- The value that an element's bytes spell. -/
def ParamType.ofBytes (ty : ParamType) (bs : List Byte) : Int :=
  let n := natLE bs
  match ty with
  | .s8 => signedN 8 n
  | .s16 => signedN 16 n
  | .s32 => signedN 32 n
  | _ => n

/-- An element's bytes. -/
def ParamType.toBytes (ty : ParamType) (v : Int) : List Byte := bytesLE ty.bytes (wrapN (8 * ty.bytes) v)

/-- A host slot word: channel 0 to 15, acquisition 8 to 255, no reserved bit (Table 05-2). -/
def slotWordOk (v : Nat) : Bool := decide (v % 32 < 16) && decide (8 ≤ v / 32 % 256) && decide (v < 2 ^ 16)

/-- The value of element `i` lies within the row's range; a NaN or an infinity lies outside every range (Table 12-11). -/
def ParamRange.has (r : ParamRange) (i : Nat) (v : Int) : Bool :=
  let f := BitVec.ofInt 32 v
  match r with
  | .ints lo hi => decide (lo ≤ v ∧ v ≤ hi)
  | .intsOr lo hi x => decide ((lo ≤ v ∧ v ≤ hi) ∨ v = x)
  | .steps lo hi k => decide (lo ≤ v ∧ v ≤ hi ∧ v % k = 0)
  | .oneOf vs => vs.contains v
  | .pow2 lo hi => decide (lo ≤ v ∧ v ≤ hi) && v.toNat == 2 ^ Nat.log2 v.toNat
  | .bits n => decide (0 ≤ v ∧ v < 2 ^ n)
  | .u16any => decide (0 ≤ v ∧ v < 2 ^ 16)
  | .u32any => decide (0 ≤ v ∧ v < 2 ^ 32)
  | .upTo his => decide (0 ≤ v ∧ v ≤ his.getD i 0)
  | .slotWord => decide (0 ≤ v) && slotWordOk v.toNat
  | .fl lo hi => f32finite f && f32le lo f && f32le f hi
  | .flPos => f32finite f && f32lt f0 f
  | .flNonneg => f32finite f && f32le f0 f
  | .flNonzero => f32finite f && !f32eq f0 f
  | .flFinite => f32finite f

/-- Element `i` of a parameter in a set of listed elements, its default where it is not listed. -/
def Dev.elem (d : Dev) (cfgSeal : Nat) (set : Tab Int) (p : ParamDef) (i : Nat) : Int :=
  match set.find (pkey p.id i) with
  | some v => v
  | none => d.paramDefault cfgSeal p i

/-- The active set overlaid with the pending writes. -/
def overlay (base top : Tab Int) : Tab Int := top.foldl (fun b p => b.set p.1 p.2) base

/-- The parameters that wait for an event of the named kind take effect. -/
def Dev.takeClass (d : Dev) (k : Takes) : Dev :=
  let mine := fun (x : Nat × Int) => ((paramDef? (x.1 / 65536)).map (fun (x : ParamDef) => x.takes)) == some k
  { d with par := { d.par with active := overlay d.par.active (d.par.waiting.filter mine),
                               waiting := d.par.waiting.filter fun x => !mine x } }

/-- The committed copy marked current. -/
def Params.committed (p : Params) : CfgCopy := if p.current = 0 then p.copy0 else p.copy1

/-- The older copy takes the set with generation g + 1 and becomes current; the calibration coefficients go to both (R180). -/
def Params.store (p : Params) (vals : Tab Int) : Params :=
  let c : CfgCopy := { gen := p.committed.gen + 1, vals := vals, good := true }
  -- the calibration coefficients go to both copies (R180)
  let cal := vals.filter fun (x : Nat × Int) => decide (0x4040 ≤ x.1 / 65536) && decide (x.1 / 65536 ≤ 0x4042)
  let other : CfgCopy := { p.committed with vals := overlay p.committed.vals cal }
  if p.current = 0 then { p with copy0 := other, copy1 := c, current := 1 } else { p with copy0 := c, copy1 := other, current := 0 }

/-- The committed elements that still wait for their Takes effect instant, as a set. -/
def Params.withWaiting (p : Params) : Tab Int := overlay p.active p.waiting

/-- A parameter of subsystem 0xD (R404, R405). -/
def isSafety (id : Nat) : Bool := id / 4096 == 0xD
/-- CONFIG_LOCK does not apply to it (R407). -/
def lockExempt (id : Nat) : Bool := id / 4096 == 0xB || id / 4096 == 0xC

/-- Results of up to 16 bytes go in the result field, longer ones to data in (R404). -/
def byteResult (bs : List Byte) : CmdResult := if bs.length ≤ 16 then ⟨Sc.DONE, bs, []⟩ else ⟨Sc.DONE, [], bs⟩

/-- PARAM_GET (R404). -/
def execParamGet (t : Nat) (c : CmdRef) (id index count type source : Nat) (s : State) : Answer :=
  s.upd t true fun s d => d.runCmd c 0x0020 fun d =>
    match paramDef? id with
    | none => (d, stRes Sc.UNKNOWN_PARAM)
    | some p =>
      if count = 0 ∨ 4096 < count ∨ p.count < index + count then (d, stRes Sc.RANGE)
      else if type ≠ p.ty.code ∨ 2 < source then (d, stRes Sc.BAD_ARG)
      else
        let set := if source = 0 then d.par.active else if source = 1 then overlay d.par.active d.par.pending else d.par.committed.vals
        let cfgSeal := (s.safe.cfgSealed.map sealCode).getD 0
        (d, byteResult ((List.range count).flatMap fun i => p.ty.toBytes (d.elem cfgSeal (if isSafety id then [] else set) p (index + i))))

/-- The values of a PARAM_SET, element by element. -/
def unpack (ty : ParamType) : Nat → List Byte → List Int
  | 0, _ => []
  | n + 1, bs => ty.ofBytes (bs.take ty.bytes) :: unpack ty n (bs.drop ty.bytes)

/-- The first element outside its range, counted from `i`. -/
def firstBad (r : ParamRange) : Nat → List Int → Option Nat
  | _, [] => none
  | i, v :: vs => if r.has i v then firstBad r (i + 1) vs else some i

/-- Values written to consecutive elements of a set. -/
def setElems (id : Nat) : Nat → List Int → Tab Int → Tab Int
  | _, [], s => s
  | i, v :: vs, s => setElems id (i + 1) vs (s.set (pkey id i) v)

/-- PARAM_SET: the checks of R405 in their order, nothing written after a failed one. -/
def execParamSet (t : Nat) (c : CmdRef) (id index count type : Nat) (values : List Byte) (s : State) : Answer :=
  s.upd t true fun _ d => d.runCmd c 0x0021 fun d =>
    match paramDef? id with
    | none => (d, stRes Sc.UNKNOWN_PARAM)
    | some p =>
      if count = 0 ∨ 4096 < count then (d, stRes Sc.RANGE)
      else if p.count < index + count then (d, ⟨Sc.RANGE, wordsBytes [max index p.count], []⟩)
      else if type ≠ p.ty.code ∨ values.length < count * p.ty.bytes then (d, stRes Sc.BAD_ARG)
      else if isSafety id then (d, stRes Sc.DENIED)
      else if d.par.lock ∧ !lockExempt id then (d, stRes Sc.LOCKED)
      else
        let vs := unpack p.ty count values
        match firstBad p.range index vs with
        | some i => (d, ⟨Sc.RANGE, wordsBytes [i], []⟩)
        | none => ({ d with par := { d.par with pending := setElems id index vs d.par.pending } }, stRes Sc.DONE)

/-- A commit runs: its Next control cycle changes are not yet agreed with the twin (R229, R406). -/
def Dev.commitRuns (d : Dev) : Bool := d.ctl.waits.any fun w => match w.body with
  | .params _ gains => !gains
  | _ => false

/-- PARAM_DISCARD clears the pending set; BUSY while a commit runs (Table 12-9). -/
def execParamDiscard (t : Nat) (c : CmdRef) (s : State) : Answer :=
  s.upd t true fun _ d => d.runCmd c 0x0023 fun d =>
    if d.commitRuns then (d, stRes Sc.BUSY) else ({ d with par := { d.par with pending := [] } }, stRes Sc.DONE)

/-- PARAM_LOCK sets CONFIG_LOCK when the pending set is empty (R407). -/
def execParamLock (t : Nat) (c : CmdRef) (s : State) : Answer :=
  s.upd t true fun _ d => d.runCmd c 0x0024 fun d =>
    if d.par.pending = [] then ({ d with par := { d.par with lock := true } }, stRes Sc.DONE) else (d, stRes Sc.STATE)

/-- The takes-effect code of R408. -/
def Takes.code : Takes → Nat
  | .cycle => 0 | .control => 1 | .deEnergised => 2 | .event | .outer | .ident | .arm | .conv | .boot => 3

/-- The 8-byte entry of R408. -/
def ParamDef.entry (p : ParamDef) : List Byte :=
  bytesLE 2 p.id ++ bytesLE 2 p.count
    ++ bytesLE 4 (p.ty.code + 16 * p.takes.code + 64 * bit01 (isSafety p.id) + 128 * bit01 (lockExempt p.id) + 256 * bit01 p.mustEqual)

/-- PARAM_LIST (R408). -/
def execParamList (t : Nat) (c : CmdRef) (first count : Nat) (s : State) : Answer :=
  s.upd t true fun _ d => d.runCmd c 0x0025 fun d =>
    if 256 < count then (d, stRes Sc.RANGE)
    else (d, ⟨Sc.DONE, [], ((paramTable.filter (fun p => first ≤ p.id)).take count).flatMap ParamDef.entry⟩)

end Sys2Proof.Machine
end

