-- ==== Sys2Proof/Machine/CtlOps.lean ====
section
/-!
DEFINITION. Machine/CtlOps.lean: the framework around the control laws (R190, R215 to R229): apply cycles agreed with the
twin, the inputs and their loss, handovers, supervision, identification, and the reference records sent.
-/
namespace Sys2Proof.Machine

open Sys2Proof

/-! ## Changes at an agreed apply cycle (R229) -/

/-- The second control-cycle boundary after now. -/
def Dev.secondBoundary (d : Dev) : Nat :=
  let n := max 1 (d.pn P.ctl_n_ctl)
  (d.cyc.k / n + 2) * n

/-- A unit of kind TWIN_CMD on port T that carries a change or its acknowledgement. -/
def Dev.twinApplyUnit (d : Dev) (u : TwinApply) : Dev := d.toTwin 1 64 (.twinApply u)

/-- The device applies alone. -/
def Dev.alone (d : Dev) : Bool := !d.duplex || d.twin.role == .solo

/-- A change starts towards its apply cycle: forwarded to the twin, or applied alone. -/
def Dev.agreeCtl (d : Dev) (b : CtlBody) (cmd : Option CmdRef) : Dev :=
  let a := d.secondBoundary
  let d := { d with ctl := { d.ctl with waits := d.ctl.waits ++ [⟨b, a, d.alone, cmd⟩] } }
  if d.alone then d else d.twinApplyUnit (.change b a)

/-- The opcode of a change's command. -/
def ctlOpcode : CtlBody → Nat
  | .source _ => 0x0080
  | .setpoint _ _ => 0x0081
  | .ident _ => 0x0083
  | .params _ gains => if gains then 0x0083 else 0x0022
  | .conv _ => 0x0010
  | .test _ => 0x0012

/-- A host or law record as Table 02-2 lays it out in 16 bytes (DEDUCED, log entry 58). -/
def refBytes (r : RefRec) : List Byte :=
  bytesLE 6 r.c0 ++ [BitVec.ofNat 8 r.nc, BitVec.ofNat 8 (r.arm + 8 * r.cmd)] ++ bytesLE 4 (wrapN 32 r.u0) ++ bytesLE 4 (wrapN 32 r.du)

/-- The last record sent for each arm. -/
def Dev.lastRecords (d : Dev) : List Byte :=
  (List.range 6).flatMap fun a => match d.ctl.lastRec.find a with
    | some r => refBytes r
    | none => []

/-- The effect of a change at its apply cycle. -/
def Dev.applyBody (d : Dev) (w : CtlChange) : Dev :=
  let cyc := wordsBytes [w.apply % 2 ^ 32, w.apply / 2 ^ 32]
  let done := fun (d : Dev) (data : List Byte) => match w.cmd with
    | some c => d.complete c (ctlOpcode w.body) ⟨Sc.DONE, cyc, data⟩
    | none => d
  match w.body with
  | .source h =>
    let new := h != d.ctl.host
    let data := if h then d.lastRecords else []
    done { d with ctl := { d.ctl with host := h, handover := d.ctl.handover || new, hostRun := if new then [] else d.ctl.hostRun,
                                      hostNew := if h && new then List.range 6 else d.ctl.hostNew, hostLost := if new then 0 else d.ctl.hostLost,
                                      hostDiff := if new then [] else d.ctl.hostDiff } } data
  | .setpoint c v =>
    let p := d.ctl.laws.prof.get {} c
    done { d with ctl := { d.ctl with laws := { d.ctl.laws with prof := d.ctl.laws.prof.set c { p with target := v } } } } []
  | .ident apply =>
    let d := d.takeClass .ident
    { d with ctl := { d.ctl with ident := some { cmd := w.cmd, apply := apply, started := w.apply } } }
  | .params vals gains =>
    let d := { d with par := { d.par with active := vals.foldl (fun t x => t.set x.1 x.2) d.par.active },
                      ctl := { d.ctl with handGains := d.ctl.handGains || gains } }
    if gains then done d []
    else match w.cmd with
      | some c => d.complete c 0x0022 ⟨Sc.DONE, wordsBytes [d.par.committed.gen, d.par.inForce % 2 ^ 32, d.par.inForce / 2 ^ 32], []⟩
      | none => d
  | .conv _ | .test _ => d

/-- The changes whose apply cycle has come take effect, in the order of their receipt. -/
def Dev.applyCtl (d : Dev) : Dev :=
  let due := fun (w : CtlChange) => w.acked && decide (w.apply ≤ d.cyc.k)
  let go := d.ctl.waits.filter due
  let d := { d with ctl := { d.ctl with waits := d.ctl.waits.filter fun w => !due w } }
  go.foldl Dev.applyBody d

/-- A change that the twin has not acknowledged before its boundary is dropped, and its command completes with
TWIN_TIMEOUT. -/
def Dev.dropUnacked (d : Dev) : Dev :=
  let due := fun (w : CtlChange) => !w.acked && decide (w.apply ≤ d.cyc.k)
  let gone := d.ctl.waits.filter due
  let d := { d with ctl := { d.ctl with waits := d.ctl.waits.filter fun w => !due w } }
  gone.foldl (fun (d : Dev) w =>
    let d := match w.body with
      | .conv _ | .test _ => { d with mode := { d.mode with trans := none } }
      | _ => d
    match w.cmd with
    | some c => d.complete c (ctlOpcode w.body) (stRes Sc.TWIN_TIMEOUT)
    | none => d) d

/-- The twin's acknowledgement, when it comes before the boundary. A transition then passes to step 2 of R478. -/
def Dev.twinAcked (d : Dev) (b : CtlBody) (apply : Nat) : Dev :=
  let is := fun (w : CtlChange) => w.body == b && w.apply == apply && !w.acked
  if d.cyc.k < apply && d.ctl.waits.any is then
    match b with
    | .conv _ | .test _ =>
      ({ d with ctl := { d.ctl with waits := d.ctl.waits.filter fun w => !is w } }).transitionAgreed
    | _ => { d with ctl := { d.ctl with waits := d.ctl.waits.map fun w => if is w then { w with acked := true } else w } }
  else d

/-- A change that the twin forwards: kept for its apply cycle and acknowledged (DEDUCED, log entry 59). A transition waits for its
state unit. -/
def Dev.twinForwards (d : Dev) (b : CtlBody) (apply : Nat) : Dev :=
  if apply ≤ d.cyc.k then d
  else
    let keep : Bool := match b with
      | .conv _ | .test _ => false
      | _ => true
    let d := if keep then { d with ctl := { d.ctl with waits := d.ctl.waits ++ [⟨b, apply, true, none⟩] } } else d
    d.twinApplyUnit (.ack b apply)

/-! ## Inputs (R190, R194 to R196, R220) -/

/-- A value, or an open one where there is none. -/
def Dev.orFree (d : Dev) (v : Option F32) : Dev × F32 :=
  match v with
  | some x => (d, x)
  | none => (d.drawn, d.freeVal 32)

/-- A REF chain at an instant from its last two ok outputs (R166, R190), for at most mod.est_hold_us. -/
def Dev.refLast (d : Dev) (src : Nat) (hist : List Sample) (t : Int) : Option F32 := d.refAt src (hist.take 2) t

/-- REF chain `c` at t_k through the snapshot of t_k + 2.0 µs: its value, and whether the input is lost. -/
def Dev.refInput (d : Dev) (k c : Nat) : Option F32 × Bool :=
  let snap := k * d.pn P.mod_t_mod_ns + 1500
  let vis := fun (s : Sample) => decide (s.rel * 500 ≤ snap)
  let ch := d.chain (96 + c)
  let flagged : Bool := match ch.outs.find? vis with
    | some s => bitN s.tag 3 || bitN s.tag 4 || bitN s.tag 5
    | none => false
  let recent := fun (rel : Nat) => decide (rel * 500 ≤ snap) && decide (snap < rel * 500 + 2 * d.tCtlNs)
  let fresh : Bool := (ch.outs.any fun s => bitN s.tag 0 && recent s.rel) || (match ch.lastV with
    | some r => recent r
    | none => false)
  (d.refLast c (ch.oks.filter vis) (d.tOf k), decide (8 ≤ c) || flagged || !fresh)

/-- The TACHO input (R206, R220): ω_m, and whether it is lost. -/
def Dev.tachoInput (d : Dev) : F32 × Bool :=
  let c := d.sar.ch.get {} (d.pn P.ctl_tacho_ch)
  let late := decide (c.lastAt + 4 * ticksOfNs (d.tCtlNs * d.pn P.ctl_n_out) < d.clk)
  (f32mul (d.pf P.ctl_tacho_k) (f32ofInt c.last), !bitN c.lastTag 0 || bitN c.lastTag 1 || late)

/-- The inputs of control cycle `k`, and the lost ones: bit 0 u_dc, 1 to 3 the grid voltages, 4 to 9 the arms, 10 TACHO.
An input without a value is an open value. -/
def Dev.gather (d : Dev) (k : Nat) : Dev × LawIn × Nat :=
  let (udc, l0) := d.refInput k (d.pn P.ctl_src_udc)
  let ug := (List.range 3).map fun i => d.refInput k (d.pni P.ctl_src_ug i)
  let (tacho, lt) := d.tachoInput
  let recs := (List.range 6).map fun a => match d.ctl.meas.find a with
    | some r => if r.cycle + 1 = k then some r else none
    | none => none
  let lost := maskOf 11 fun i =>
    if i = 0 then l0
    else if i < 4 then (ug.getD (i - 1) (none, true)).2
    else if i < 10 then (match recs.getD (i - 4) none with
      | some r => !r.ok
      | none => true)
    else lt
  let (d, udc) := d.orFree udc
  let (d, a) := d.orFree (ug.getD 0 (none, true)).1
  let (d, b) := d.orFree (ug.getD 1 (none, true)).1
  let (d, c) := d.orFree (ug.getD 2 (none, true)).1
  let (d, is) := recs.foldl (fun (acc : Dev × List F32) r =>
    let (d, v) := acc.1.orFree (r.map fun r => f32ofRat r.iNext 1000)
    (d, acc.2 ++ [v])) (d, [])
  let (d, vs) := recs.foldl (fun (acc : Dev × List F32) r =>
    let (d, v) := acc.1.orFree (r.map fun r => f32ofRat r.vSum 100)
    (d, acc.2 ++ [v])) (d, [])
  let n := fun (f : ArmMeas → Nat) => (List.range 6).map fun i => ((d.ctl.meas.find i).map f).getD 0
  (d, { udc := udc, ug := ⟨a, b, c⟩, iArm := is, vArm := vs, nUse := n (·.nUse), nFb := n (·.nFb), wTacho := tacho }, lost)

/-- An input that a law of the application uses. -/
def Dev.inputUsed (d : Dev) (i : Nat) : Bool :=
  if i < 1 then true else if i < 4 then !d.isDrive else if i < 10 then true else d.isDrive && d.pv P.ctl_spd_src == 1

/-- ctl.fb_hold_us in control cycles, rounded up. -/
def Dev.holdLimit (d : Dev) : Nat := ceilDiv (d.pn P.ctl_fb_hold_us * 1000) (max 1 d.tCtlNs)

/-- The reaction to lost inputs (R216, R220, R221, R223): the device, whether a hold is in force, and whether the loss has
been restored. Bit 11 is a missing host record. -/
def Dev.lossStep (d : Dev) (lost : Nat) : Dev × Bool × Bool :=
  let was := d.ctl.lost
  let host := d.ctl.host && d.ctl.hostLost != 0
  let mask := maskOf 12 fun i => if i = 11 then host else bitN lost i
  let active := fun (i : Nat) => bitN mask i && (i == 11 || d.inputUsed i)
  let new := maskOf 12 fun i => bitN mask i && !bitN was i
  let react := d.pv P.ctl_fb_react == 1           -- BLOCK
  let atOnce := maskOf 12 fun i => bitN new i && active i && react && i != 11
  let told := maskOf 12 fun i => bitN new i && !bitN atOnce i && i != 11
  let d := if told != 0 then d.raise Ev.CTL_FB_LOST told else d
  let d := if atOnce != 0 then (d.raise Ev.CTL_FB_BLOCK atOnce).blockCause 2 else d
  let held := maskOf 12 fun i => active i && (!react || i == 11)
  let any := (List.range 12).any active
  let d := { d with ctl := { d.ctl with lost := mask } }
  let d := if !any && d.ctl.holdN.isNone then d.clearCause 2 else d
  match d.ctl.holdN with
  | none =>
    if held = 0 then (d, false, false)
    else
      let n0 := match d.ctl.restored with
        | some (at_, n) => if d.clk ≤ at_ + ticksOfS 1 then n else 0
        | none => 0
      ({ d with ctl := { d.ctl with holdN := some n0, okRun := 0 } }, true, false)
  | some n =>
    let ok := if held = 0 then d.ctl.okRun + 1 else 0
    if 2 ≤ ok then
      let inTime := decide (n + 1 < d.holdLimit)
      let d := { d with ctl := { d.ctl with holdN := none, okRun := 0, restored := if inTime then some (d.clk, n + 1) else d.ctl.restored } }
      if inTime then (d.raise Ev.CTL_FB_RESTORED, false, true) else (d.clearCause 2, false, true)
    else ({ d with ctl := { d.ctl with holdN := some (n + 1), okRun := ok } }, true, false)

/-- The arm currents (R224). -/
def Dev.overcurrent (d : Dev) : Dev :=
  let trip := d.pf P.ctl_i_arm_trip_a
  match (List.range 6).find? fun a => match d.ctl.meas.find a with
      | some r => f32lt trip (f32abs (f32ofRat r.iNext 1000))
      | none => false with
  | some a =>
    let d := if bitN d.mode.causes 4 then d else (d.raise Ev.CTL_ARM_OVERCURRENT a).blockCause 4
    { d with ctl := { d.ctl with block := d.ctl.block || d.mode.conv == .deblocked } }
  | none => d.clearCause 4

/-! ## The law snapshot (R190) -/

/-- ctl.d_mode, ctl.q_mode and ctl.drv_mode in one number. -/
def Dev.ctlModes (d : Dev) : Nat := d.pn P.ctl_d_mode + 4 * d.pn P.ctl_q_mode + 16 * d.pn P.ctl_drv_mode

/-- The laws' state when the converter leaves DE-ENERGISED (R199); the targets stand. -/
def Dev.freshLaws (d : Dev) : LawState :=
  { w := f32mul f2pi (d.pf P.ctl_f_nom_hz),
    prof := d.ctl.laws.prof.map fun p => (p.1, { target := p.2.target }) }

/-- The snapshot of control cycle `k`, and what R190, R217, R220 to R224 do at it. -/
def Dev.snapshot (d : Dev) (k : Nat) : Dev :=
  let d := d.overcurrent
  let (d, inp, lost) := d.gather k
  let live := d.mode.conv == .deblocked
  let unlocked := live && !d.isDrive && !d.ctl.locked
  let lost := if unlocked then maskOf 11 fun i => bitN lost i || (1 ≤ i && i ≤ 3) else lost
  let (d, hold, restored) := d.lossStep lost
  let entry := live && !d.ctl.wasConv
  let moded := d.ctl.modes != d.ctlModes
  let hand := d.ctl.handover || entry || restored || moded
  let d := if hand || d.ctl.handGains then d.raise Ev.CTL_HANDOVER else d
  let base := if d.mode.conv = .deEnergised ∨ d.ctl.wasOut = false then d.freshLaws else d.ctl.laws
  let n := max 1 (d.pn P.ctl_n_ctl)
  let run : LawRun :=
    { k := k, inp := inp, laws := base, outer := (k / n) % max 1 (d.pn P.ctl_n_out) == 0,
      preset := hand || d.ctl.host, presetI := d.ctl.handGains, entry := entry, hold := hold,
      gridLost := bitN d.ctl.lost 1 || bitN d.ctl.lost 2 || bitN d.ctl.lost 3 }
  { d with ctl := { d.ctl with lawRun := some run, handover := false, handGains := false, wasConv := live,
                               wasOut := d.mode.conv != .deEnergised, modes := d.ctlModes } }

/-! ## Supervision (R200, R222, R223) -/

/-- The PLL's lock (R200). -/
def Dev.pllLock (d : Dev) (l : LawState) : Dev :=
  if d.isDrive then d
  else
    let e := f32abs l.eq
    let good := if f32lt e (f32ofRat 2 100) then d.ctl.goodN + 1 else 0
    let bad := if f32lt (f32ofRat 1 10) e then d.ctl.badN + 1 else 0
    let low := f32lt l.umag (f32mul (f32ofRat 3 10) (d.pf P.ctl_ug_nom_v))
    let un := low || decide (2000000 ≤ bad * d.tCtlNs)
    let lock := !un && (d.ctl.locked || decide (20000000 ≤ good * d.tCtlNs))
    let was := d.ctl.locked
    let d := { d with ctl := { d.ctl with locked := lock, goodN := good, badN := bad } }
    if lock && !was then d.raise Ev.CTL_PLL_LOCK
    else if was && !lock && d.mode.conv == .deblocked then d.raise Ev.CTL_PLL_UNLOCK
    else d

/-- The following errors at an outer cycle (R222): index 6 is the current vector. -/
def Dev.following (d : Dev) (l : LawState) : Dev :=
  let live := d.mode.conv == .deblocked
  let err : Nat → Option F32 := fun c =>
    if !live then none
    else if c = 6 then some (fmag ⟨f32sub l.ref.x l.ip.x, f32sub l.ref.y l.ip.y⟩)
    else
      let p := l.prof.get {} c
      if p.active && !p.soft && d.profUsed c then some (f32abs (f32sub p.x (d.profMeas l c))) else none
  let lost := fun (c : Nat) => match err c with
    | some e => f32lt (d.pfi P.ctl_fe_emax c) e
    | none => false
  let fe : Tab Nat := (List.range 7).filterMap fun c =>
    if lost c then some (c, (d.ctl.fe.find c).getD d.clk) else none
  let up := maskOf 7 fun c => bitN d.ctl.feUp c && lost c
  let d := { d with ctl := { d.ctl with fe := fe, feUp := up } }
  if up = 0 then d.clearCause 3 else d

/-! ## Identification (R225 to R227) -/

/-- T_d, in half nanoseconds. -/
def Dev.tdHalfNs (d : Dev) : Nat := 3 * d.tCtlNs + (2 * d.depth + 1) * d.pn P.mod_t_mod_ns

/-- The slope, A/s, of the least-squares line through samples of control cycles and currents; none without two instants. -/
def lsqSlope (tNs : Nat) (xs : List (Nat × F32)) : Option F32 :=
  let pts : List (Int × Int) := xs.map fun p => ((p.1 : Int), f32floor 149 p.2)
  let n : Int := pts.length
  let sx := pts.foldl (fun a p => a + p.1) (0 : Int)
  let sy := pts.foldl (fun a p => a + p.2) (0 : Int)
  let sxy := pts.foldl (fun a p => a + p.1 * p.2) (0 : Int)
  let sxx := pts.foldl (fun a p => a + p.1 * p.1) (0 : Int)
  let den := n * sxx - sx * sx
  if den ≤ 0 ∨ xs.any (fun p => !f32finite p.2) then none
  else some (f32ofRat ((n * sxy - sx * sy) * 1000000000) (den.toNat * 2 ^ 149 * max 1 tNs))

/-- A segment ends: its inductance, or a failure. -/
def Dev.closeSegment (d : Dev) (r : IdentRun) : IdentRun :=
  let pos := r.seg != 1
  match lsqSlope (d.pn P.mod_t_mod_ns) r.samples with
  | some s =>
    if (if pos then f32lt f0 s else f32lt s f0) then
      { r with slopes := r.slopes ++ [(r.phase, f32div (d.pf P.ctl_id_w_v) (f32abs s))], samples := [] }
    else { r with bad := true, ended := true, samples := [] }
  | none => { r with bad := true, ended := true, samples := [] }

/-- The segment after one of `len` ns. -/
def Dev.nextSegment (d : Dev) (r : IdentRun) (len : Nat) : IdentRun :=
  let r := { r with at_ := r.at_ + len }
  if r.ended then r
  else if r.seg < 2 then { r with seg := r.seg + 1 }
  else if r.rep + 1 < d.pn P.ctl_id_reps then { r with seg := 0, rep := r.rep + 1 }
  else if r.phase < 2 then { r with seg := 0, rep := 0, phase := r.phase + 1 }
  else { r with ended := true }

/-- The identification in control cycle `k` (R226): a sample, the segment in force and its pulses. The segments follow the
times of R226 from the first control cycle, whatever T_ctl. It fails when the converter leaves DEBLOCKED (DEDUCED, log entry
60). -/
def Dev.identStep (d : Dev) (k : Nat) (l : LawState) : Dev :=
  match d.ctl.ident with
  | none => { d with ctl := { d.ctl with idPulse := {} } }
  | some r =>
    if r.ended then { d with ctl := { d.ctl with idPulse := {} } }
    else
      let iz := l.iz.get r.phase
      let r := if d.mode.conv ≠ .deblocked ∨ f32lt (d.pf P.ctl_iz_max_a) (f32abs iz) = true then { r with bad := true, ended := true } else r
      let since := (k - r.started) * d.pn P.mod_t_mod_ns - r.at_
      let r := if !r.ended && d.tdHalfNs ≤ since then { r with samples := (k, iz) :: r.samples } else r
      let len := (if r.seg = 1 then 2 else 1) * d.pn P.ctl_id_tp_us * 1000
      let r := if !r.ended && len ≤ since then d.nextSegment (d.closeSegment r) len else r
      let w := if r.ended then f0 else if r.seg = 1 then f32neg (d.pf P.ctl_id_w_v) else d.pf P.ctl_id_w_v
      let half := f32neg (f32div w f2)
      { d with ctl := { d.ctl with ident := some r, idPulse := if r.ended then {} else phOf fun x => if x = r.phase then w else half } }

/-- The mean inductance of a phase. -/
def phaseMean (r : IdentRun) (x : Nat) : F32 :=
  let ys := (r.slopes.filter fun s => s.1 == x).map (·.2)
  f32div (ys.foldl f32add f0) (f32ofInt ys.length)

/-- L_arm in H and the spread's verdict. -/
def identResult (r : IdentRun) : F32 × Bool :=
  let m := (List.range 3).map (phaseMean r)
  let mean := f32div (m.foldl f32add f0) f3
  let hi := m.foldl f32max (m.headD f0)
  let lo := m.foldl f32min (m.headD f0)
  (mean, !f32le (f32div (f32sub hi lo) mean) (f32ofRat 1 10))

/-- The parameter elements of R227 for L_arm, and whether a bandwidth was reduced. -/
def Dev.identGains (d : Dev) (L : F32) : List (Nat × Int) × Bool :=
  let flim := f32ofRat 2000000000 (20 * max 1 d.tdHalfNs)
  let fi := f32min (d.pf P.ctl_bw_i_hz) flim
  let fz := f32min (d.pf P.ctl_bw_z_hz) flim
  let wi := f32mul f2pi fi
  let wz := f32mul f2pi fz
  let Lc := if d.isDrive then f32div (d.pf P.ctl_l_s_uh) f1e6 else f32add (f32div L f2) (f32div (d.pf P.ctl_l_grid_uh) f1e6)
  let five := f32ofInt 5
  let kpI := f32mul wi Lc
  let kp4 := f32mul wz L
  let kp5 := f32div kp4 f3
  let one := fun (n : Nat) (kp w : F32) => [(pkey P.ctl_kp n, kp.toInt), (pkey P.ctl_ki n, (f32div (f32mul kp w) five).toInt)]
  ((pkey P.ctl_l_arm_uh 0, (f32mul L f1e6).toInt) :: ([1, 2, 3].flatMap fun n => one n kpI wi) ++ one 4 kp4 wz ++ one 5 kp5 wz,
   f32lt flim (d.pf P.ctl_bw_i_hz) || f32lt flim (d.pf P.ctl_bw_z_hz))

/-! ## Records (R191, R192, R216, R219, R479, R480) -/

/-- A continuation record (R191). -/
def continuation (n : Nat) (r : RefRec) : RefRec :=
  { r with c0 := r.c0 + n, u0 := clampInt (-2147483648) 2147483647 (r.u0 + (n : Int) * r.du / 256) }

/-- The step of R219 and R218 per control cycle, in 10 mV. -/
def Dev.hostStep (d : Dev) : Int := f32floor 0 (f32mul (d.pf P.ctl_handover_rate) (f32ofRat (d.tCtlNs * 100) 1000000))

/-- The host's record for an arm and c0, ramped from the last AUTO record (R219). -/
def Dev.hostRecord (d : Dev) (n c0 a : Nat) : Dev × Option RefRec :=
  match (d.ctl.hostQ.get [] a).find? (fun r => r.c0 == c0) with
  | none => (d, none)
  | some r =>
    let q := (d.ctl.hostQ.get [] a).filter fun x => c0 < x.c0
    let d := { d with ctl := { d.ctl with hostQ := d.ctl.hostQ.set a q } }
    let limit := f32mul (d.pf P.ctl_host_step_max_v) (f32ofInt 100)
    let new := d.ctl.hostNew.contains a
    let diff : Int := if new then match d.ctl.lastRec.find a with
        | some x => r.u0 - (continuation n x).u0
        | none => 0
      else d.ctl.hostDiff.get 0 a
    let ramps := !new || f32lt limit (f32ofInt diff.natAbs)
    let rest : Int := if !ramps then 0 else if diff < 0 then min 0 (diff + d.hostStep) else max 0 (diff - d.hostStep)
    let d := if new && ramps then d.raise Ev.HANDOVER_CLAMP a else d
    let d := { d with ctl := { d.ctl with hostNew := d.ctl.hostNew.filter (· != a), hostDiff := d.ctl.hostDiff.set a rest } }
    (d, some { r with u0 := clampInt (-2147483648) 2147483647 (r.u0 - rest) })

/-- The record of an arm in HOST mode for `c0`: the host's, a continuation at the first gap, none from the second on
(R216), with BLOCK where R479 and R480 ask for it. -/
def Dev.hostArm (d : Dev) (n c0 a : Nat) : Dev × Option RefRec :=
  let (d, r?) := d.hostRecord n c0 a
  let gap := d.ctl.hostRun.get 0 a
  let d := { d with ctl := { d.ctl with hostRun := d.ctl.hostRun.set a (if r?.isSome then 0 else gap + 1)
                                        hostLost := maskOf 6 fun i => if i = a then r?.isNone else bitN d.ctl.hostLost i } }
  let d := if r?.isNone then d.raise Ev.CTL_HOST_REF_GAP a else d
  match r? with
  | some r =>
    let stop := d.ctl.block || (r.cmd == 0 && d.convAt c0 != .deblocked)
    (d, some (if stop then { r with cmd := 2 } else r))
  | none =>
    if d.ctl.block then (d, some ⟨c0, n, a, 2, ((d.ctl.lastRec.find a).map (·.u0)).getD 0, 0⟩)
    else match d.ctl.lastRec.find a with
      | some x => if gap = 0 then
          let y := continuation n x
          (d, some (if y.cmd == 0 && d.convAt c0 != .deblocked then { y with cmd := 2 } else y))
        else (d, none)
      | none => (d, none)

/-- The records sent: to the spine and the rings, to the twin, and used by the device itself (R192, R286). -/
def Dev.sendRecords (d : Dev) (c0 n : Nat) (rs : List RefRec) : Dev :=
  if rs.isEmpty || !d.decided || d.flt.stopped then d
  else
    let rec? := fun (a : Nat) => rs.find? fun r => r.arm == a
    let b : RefBlock :=
      { c0 := c0, nc := n, present := maskOf 6 fun a => (rec? a).isSome,
        cmds := (List.range 6).map fun a => ((rec? a).map (·.cmd)).getD 0,
        vals := (List.range 6).map fun a => ((rec? a).map fun r => (r.u0, r.du)).getD (0, 0) }
    let d := (2 :: d.refPorts none).foldl (fun (d : Dev) q => d.give q (.refRec b)) (d.storeRefs false b)
    { d with ctl := { d.ctl with prevRec := d.ctl.lastRec, lastRec := rs.foldl (fun t r => t.set r.arm r) d.ctl.lastRec, seenRef := (c0 :: d.ctl.seenRef).eraseDups.take 8 },
             cyc := { d.cyc with sentRec := d.cyc.sentRec ++ refBlockBytes b } }

/-- The control signals of control cycle `k` for the recorder (Table 11-2). -/
def Dev.recCtl (d : Dev) (k : Nat) (l : LawState) : Dev :=
  let x := fun (c : Nat) => (l.prof.get {} c).x
  let g := fun (p : Ph) => [p.a, p.b, p.c]
  let six := fun (v : List F32) => (List.range 6).map fun i => v.getD i f0
  let vs := six l.u ++ six l.iArm ++ g l.iz ++ [l.udcf, l.iDc, l.thP, l.w, l.umag, l.eq, l.ip.x, l.ip.y, l.im.x, l.im.y, l.ref.x, l.ref.y]
    ++ [l.vp.x, l.vp.y, l.vn.x, l.vn.y, l.pm, l.qm, l.eSum] ++ g l.ePh ++ g l.eDl ++ (List.range 6).map x
    ++ [l.wM, l.thE, l.vcm] ++ g l.wx ++ [l.pSum, l.iDcRef]
  let j := k / max 1 (d.pn P.ctl_n_ctl)
  (vs.zip (List.range vs.length)).foldl (fun (d : Dev) p => d.recPut (0x7000 + p.2) (plain j (d.tOf k * 256) (some p.1) 0)) d

end Sys2Proof.Machine
end

