-- ==== Sys2Proof/Machine/TwinOps.lean ====
section
/-!
DEFINITION. Machine/TwinOps.lean: the duplex unit (R301 to R326): epochs, drones and paths, digests, stages, and what the
twin state does at a cycle boundary.
-/
namespace Sys2Proof.Machine

open Sys2Proof

def Dev.setTwin (d : Dev) (x : Twin) : Dev := { d with twin := x }

/-! ## Epochs (R305, R307, R310) -/

/-- The epoch after `e` on a takeover. -/
def nextEpoch (e : Nat) : Nat := (if (e + 1) % 64 = 0 then e + 3 else e + 1) % 2 ^ 32

/-- A 6-bit report extended to 32 bits around the own epoch. -/
def extendEpoch (own r : Nat) : Nat := ((own : Int) + (((r : Int) - own + 32) % 64 - 32)).toNat

/-- The highest accepted epoch that the own cells report, extended; 0 when every one reports none. -/
def Dev.cellEpoch (d : Dev) : Nat :=
  (List.range 48).foldl (fun b p =>
    let r := (d.port p).accEpoch
    if d.cellAt p && r != 0 then max b (extendEpoch d.twin.epoch r) else b) 0

/-- The epoch that a claimant takes. -/
def Dev.claimedEpoch (d : Dev) : Nat :=
  let base := max d.twin.epoch d.cellEpoch
  let odd := !d.letterB
  let c := if (base + 1) % 2 = bit01 odd then base + 1 else base + 2
  (if c % 64 = 0 then c + 2 else c) % 2 ^ 32

/-! ## Capacity and health (R253, R317, Table 09-5) -/

def Dev.portsInRun (d : Dev) : Nat := maskOf 48 fun p => (d.port p).stage == .run

/-- The ports that the twin reports in RUN are in RUN here. -/
def Dev.portsMatch (d : Dev) : Bool :=
  match d.twin.twinHealth with
  | some h => (List.range 48).all fun p => !bitN h.ports p || bitN d.portsInRun p
  | none => true

def Dev.fullCapacity (d : Dev) : Bool := decide (d.rNeed ≤ d.goodReeds) && d.portsMatch

/-- A path is silent or in fault (Table 09-4). -/
def DronePath.off (p : DronePath) : Bool := p.fault || decide (0 < p.silent)

/-- The twin's firmware pairs with the own (R448), as its health reports say. -/
def Dev.pairs (d : Dev) : Bool :=
  let minor := fieldN d.boot.version.toNat 8 8
  match d.twin.twinHealth with
  | none => true
  | some h => fieldN d.boot.version.toNat 0 8 == h.fwMajor
      && (minor == h.fwMinor || (if h.fwMinor < minor then decide (d.boot.pairMinor ≤ h.fwMinor) else decide (h.pairMinor ≤ minor)))

/-- The reasons against the device. -/
def Dev.unfitReasons (d : Dev) : Nat :=
  maskOf 8 fun i => match i with
    | 0 => decide (d.goodReeds < d.rNeed)
    | 1 => !d.portsMatch
    | 2 => d.twin.selfFail
    | 3 => d.twin.syncHeld || decide (0 < d.twin.misRun) || !d.pairs
    | 4 => d.twin.t.off || d.twin.hb.off
    | 5 => (List.range 8).any fun m => bitN (d.pn P.meas_ref_follow) m && (d.chain (96 + m)).own
    | 6 => d.mode.doms.any fun x => x.2.faulty
    | _ => [0, 1, 3].any fun p => d.portEnabled p && (d.link p).width != 2

/-- The own health report. -/
def Dev.healthReport (d : Dev) : HealthReport :=
  let x := d.twin
  let temps := ((List.range 4).filter (bitN d.mode.tempOk)).map fun i => d.mode.temps.get 0 i
  { cycle := d.cyc.k, state := if x.role = .solo then 0 else if x.role = .holder then 1 else 2,
    stage := if x.role = .holder ∨ x.role = .solo then 0 else if x.stage = .ready then 0 else if x.stage = .sync then 1 else 2,
    twinB := d.boot.twinSel, full := d.fullCapacity, paths := bit01 (!x.t.off) + 2 * bit01 (!x.hb.off),
    fwMajor := fieldN d.boot.version.toNat 0 8, reasons := d.unfitReasons, reeds := d.goodReeds % 256, rNeed := d.rNeed % 256,
    ports := d.portsInRun, stPass := x.stPass.toNat, stFail := x.stFail.toNat,
    lanes := maskOf 8 fun n => (d.lane n).stage == .up,
    tmax := (clampInt 0 255 ((temps.foldl max (temps.headD (-5120))) / 128 + 40)).toNat,
    epoch := x.epoch, mism := x.mism.toNat, fwMinor := fieldN d.boot.version.toNat 8 8, pairMinor := d.boot.pairMinor }

/-- A unit of kind TWIN_CMD to the twin. -/
def Dev.twinUnit (d : Dev) (len : Nat) (b : FabBody) : Dev := d.toTwin 1 len b

/-! ## Configuration digest (R323) -/

/-- Device identity and network: sys.dev_addr and the mailbox and gateway parameters (DEDUCED, log entry 61). -/
def cfgExcluded (id : Nat) : Bool := id / 4096 == 0xE || id / 4096 == 0xD || (0x1001 ≤ id && id ≤ 0x1024)

/-- The committed set in ascending ID order, without what the digest excludes. -/
def Dev.committedBytes (d : Dev) : List Byte :=
  (paramTable.filter fun p => !cfgExcluded p.id).flatMap fun p =>
    (List.range p.count).flatMap fun i => p.ty.toBytes (d.elem 0 d.par.committed.vals p i)

/-- Bytes 0 to 7 of the configuration digest. -/
def Dev.cfgDigest (d : Dev) : BitVec 64 :=
  BitVec.ofNat 64 (natLE (bytesLE 8 ((Config.sha384 d.committedBytes).toNat >>> 320)).reverse)

/-! ## Stages and roles -/

/-- Step 1 of the state transfer: the standby requests a snapshot (R324). -/
def Dev.askSnapshot (d : Dev) : Dev :=
  (d.setTwin { d.twin with asked := true, sync := none, shadow := none }).twinUnit 64 (.twinCmd .snapRequest)

/-- A standby enters SYNC (R315, R324). -/
def Dev.enterSync (d : Dev) : Dev :=
  let d := d.setTwin { d.twin with stage := .sync, synced := false, matchRun := 0, misRun := 0, asked := false, sync := none, shadow := none }
  let d := d.raise Ev.DUP_SYNC_START
  if d.linkUp 2 && !d.twin.syncHeld then d.askSnapshot else d

/-- The device has decided to be a standby in SYNC (R322). -/
def Dev.joinStandby (d : Dev) (b : Drone) : Dev :=
  ((d.setTwin { d.twin with role := .standby, epoch := b.epoch, lExp := b.lease, heard := false, claim := false,
                            compared := d.cyc.k, stPass := 0, stFail := 0 }).enterSync).emit (.irq 10)

/-- The device claims the lease (R310). -/
def Dev.claim (d : Dev) : Dev :=
  let e := d.claimedEpoch
  (d.setTwin { d.twin with role := .holder, oldEpoch := d.twin.epoch, epoch := e, claim := false, takeovers := d.twin.takeovers + 1,
                           takeCycle := d.cyc.k, claims := d.twin.claims + 1 }).raise Ev.DUP_TAKEOVER e

/-- The same letter on both twins (R302). -/
def Dev.strapConflict (d : Dev) : Dev :=
  if d.twin.strap then d
  else
    let d := d.setTwin { d.twin with strap := true, role := .joining }
    ({ d with cp := { d.cp with ports := d.cp.ports.map fun (p : Nat × CellPort) => (p.1, { p.2 with stage := .off, live := false, ctrl := [] }) } }).raise Ev.DUP_STRAP

/-! ## Digests (R314, R315) -/

/-- Bits 10 to 54 of a command frame as a CMD2, padded to 8 bytes. -/
def frameDigestBits (f : CmdFrame) : List Bool :=
  ({ f with second := some (f.second.getD (.byp, 0)) }).fields.drop 10 ++ List.replicate 19 false

/-- The output digest of the cycle in progress. -/
def Dev.digest (d : Dev) : BitVec 64 :=
  let keys := d.arms.flatMap fun a => match (d.armSt a).own with
    | some b => keyBytes { b with twinB := false, holder := false, solo := false }
    | none => []
  let frames := (List.range 48).flatMap fun p => match (d.cell p).lastFrame with
    | some (k, f) => if k = d.cyc.k + d.depth then frameDigestBits f else []
    | none => []
  crc64 (byteBits keys ++ frames ++ byteBits d.cyc.sentRec)

/-- Digests of a cycle compared (R315, R316). -/
def Dev.compareDigest (d : Dev) (c : Nat) (same : BitVec 64 → Bool) : Dev :=
  match d.twin.digests.find c with
  | none => d
  | some g =>
    if c ≤ d.twin.compared then d
    else
      let x := { d.twin with compared := c }
      if same g then
        let d := d.setTwin { x with matchRun := x.matchRun + 1, misRun := 0 }
        if d.twin.role == .standby && d.twin.stage == .sync && d.pairs && decide (d.pn P.dup_ready_match ≤ d.twin.matchRun) then
          (d.setTwin { d.twin with stage := .ready, syncHeld := false }).raise Ev.DUP_READY
        else d
      else
        let d := (d.setTwin { x with matchRun := 0, misRun := x.misRun + 1, mism := x.mism + 1 }).raiseLim
          Ev.DUP_DIGEST_MISMATCH 0 (1000 * d.tModTicks) c
        if d.twin.role == .standby && d.twin.stage != .sync && decide (d.pn P.dup_dig_limit ≤ d.twin.misRun) then d.enterSync else d

/-! ## What a drone says (R306, R309, R310, R320) -/

/-- A valid drone on either path, as far as both paths carry it. -/
def Dev.hearDrone (d : Dev) (b : Drone) : Dev :=
  let x := d.twin
  let x := if 0 < b.lease ∧ x.lExp ≤ b.lease then { x with lExp := b.lease, heard := false } else { x with heard := true }
  let x := { x with leaseSeen := if d.cyc.k < b.lease then d.cyc.k else x.leaseSeen,
                    epoch := if b.role = 1 ∧ x.role = .standby ∧ x.epoch ≤ b.epoch ∧ x.lostHolder = false then b.epoch else x.epoch,
                    demote := if b.role = 1 ∧ x.role = .holder ∧ x.epoch < b.epoch ∧ x.demote = none then some (1, b.epoch) else x.demote,
                    twinRel := if b.rel then (if b.relCycle = 0 then x.twinRel else some b.relCycle) else none }
  let d := d.setTwin x
  if d.twin.role == .joining && b.role == 1 then d.joinStandby b else d

/-! ## Paths (R313) -/

/-- A path at the end of a cycle: its new counts, and the event. -/
def DronePath.close (p : DronePath) : DronePath × Option Nat :=
  if p.got then
    let n := p.good + 1
    if p.fault ∧ 16 ≤ n then ({ got := false, silent := 0, good := n, fault := false }, some Ev.DUP_PATH_RESTORED)
    else ({ p with got := false, silent := 0, good := n }, none)
  else
    let n := p.silent + 1
    if !p.fault && decide (3 ≤ n) then ({ got := false, silent := n, good := 0, fault := true }, some Ev.DUP_PATH_FAULT)
    else ({ p with got := false, silent := n, good := 0 }, none)

/-- Both paths at a cycle boundary; the argument is 0 for T and 1 for HB. -/
def Dev.closePaths (d : Dev) : Dev :=
  let (t, et) := d.twin.t.close
  let (h, eh) := d.twin.hb.close
  let x := d.twin
  let up := fun (n : BitVec 16) (e : Option Nat) (code : Nat) => if e = some code then n + 1 else n
  let d := d.setTwin { x with t := t, hb := h, droneT := (x.tAt :: x.droneT).take 16, droneHb := (x.hbAt :: x.droneHb).take 16,
                              tAt := 4294967295, hbAt := 4294967295,
                              tFaults := up x.tFaults et Ev.DUP_PATH_FAULT, tBack := up x.tBack et Ev.DUP_PATH_RESTORED,
                              hbFaults := up x.hbFaults eh Ev.DUP_PATH_FAULT, hbBack := up x.hbBack eh Ev.DUP_PATH_RESTORED }
  let d := match et with
    | some e => d.raise e 0
    | none => d
  match eh with
  | some e => d.raise e 1
  | none => d

/-! ## Raising the epoch at the cells (R319) -/

/-- The frames sent for targets k + 1 to k + d − 1 of a port, in ascending order, with the new epoch. -/
def Dev.resends (d : Dev) (p : Nat) : List (Nat × CmdFrame) :=
  let k := d.cyc.k
  (List.range (d.depth - 1)).filterMap fun i =>
    ((d.port p).sent.find? fun f => f.1 == k + 1 + i).map fun f => (f.1, { f.2 with h := true, epoch := d.twin.epoch % 64 })

/-- The resends of a port, and whether each arrives before its cut-off. -/
def Dev.resendAll (d : Dev) (tx : Tx) (p : Nat) : Dev × Bool :=
  (d.resends p).foldl (fun (acc : Dev × Bool) f =>
    let d := acc.1.sendFrame tx p (.cmd f.2)
    let ends : Int := (d.frameEnds tx p : Int) * 50 + d.tDown p
    let cut : Int := ((d.cyc.tk + (f.1 - d.cyc.k) * d.tModTicks + f.2.a1 : Nat) : Int) * 1600 - 300000
    (d, acc.2 && decide (ends < cut))) (d, true)

/-- One port of the new holder: raised when every resend passes, and after 8 cycles in any case. -/
def Dev.raisePort (d : Dev) (tx : Tx) (p n : Nat) : Dev :=
  let up := d.setPort p { d.port p with raise := none }
  let (d', ok) := up.resendAll tx p
  let done := d'.setTwin { d'.twin with raised := d'.twin.raised + 1 }
  if ok then done
  else if 8 ≤ n then (done.setTwin { done.twin with raisedLate := done.twin.raisedLate + 1 }).raise Ev.DUP_RAISE_LATE (d.cellEv p)
  else d.setPort p { d.port p with raise := some (n + 1) }

/-- The new holder's ports at a boundary: those that still carry the old epoch. -/
def Dev.raiseEpochs (d : Dev) (tx : Tx) : Dev :=
  (List.range 48).foldl (fun d p => match (d.port p).raise with
    | some n => if (d.port p).stage == .run then d.raisePort tx p n else d.setPort p { d.port p with raise := none }
    | none => d) d

/-- The device takes over as holder with the next epoch (R307, R318). -/
def Dev.takeOver (d : Dev) : Dev :=
  let old := d.twin.epoch
  let e := nextEpoch old
  let d := d.setTwin { d.twin with role := .holder, oldEpoch := old, epoch := e, twinRel := none, takeovers := d.twin.takeovers + 1,
                                   takeCycle := d.cyc.k, sync := none, shadow := none }
  let d := (List.range 48).foldl (fun d p => if (d.port p).stage == .run then d.setPort p { d.port p with raise := some 0 } else d) d
  d.raise Ev.DUP_TAKEOVER e

/-- A standby in SYNC has lost its holder (R308). -/
def Dev.loseHolder (d : Dev) : Dev :=
  let old := d.twin.epoch
  let e := nextEpoch old
  let d := (d.setTwin { d.twin with oldEpoch := old, epoch := e, lostHolder := true, sync := none, shadow := none }).raise Ev.DUP_HOLDER_LOST e
  ({ d with cyc := { d.cyc with fallback := some ⟨true, e, d.cyc.k + d.depth⟩ } }).blockCause 7

/-- The holder becomes a standby at this boundary (R309): the reasons are 0 for the uplink and 1 for a drone. -/
def Dev.demoteNow (d : Dev) (reason e : Nat) : Dev :=
  let x := d.twin
  let follow := match x.lastDrone with
    | some b => if b.role = 1 ∧ x.epoch < b.epoch then b.epoch else if reason = 1 then e else extendEpoch x.epoch e
    | none => if reason = 1 then e else extendEpoch x.epoch e
  let silent := decide (0 < x.t.silent) && decide (0 < x.hb.silent)
  let good := !x.t.off && !x.hb.off
  let d := (d.setTwin { x with role := .standby, stage := if silent then .unfit else .ready, epoch := follow, demote := none,
                               lExp := d.cyc.k + d.pn P.dup_lease_cycles, heard := false, synced := true,
                               demotions := x.demotions + 1, lastDemote := d.cyc.k }).raise Ev.DUP_DEMOTED reason
  if good && decide (0 < x.misRun) then d.enterSync else d

/-- A planned handover at the holder (R320). -/
def Dev.releaseNow (d : Dev) (c : CmdRef) : Dev :=
  let d := (d.setTwin { d.twin with role := .standby, stage := .ready, epoch := nextEpoch d.twin.epoch, rel := none, synced := true,
                                    lExp := d.cyc.k + d.pn P.dup_lease_cycles, heard := false,
                                    handovers := d.twin.handovers + 1 }).raise Ev.DUP_HANDOVER
  d.complete c 0x00B0 (stRes Sc.DONE)

/-! ## State transfer (R324, R325) -/

/-- S(c) as the holder captures it. -/
def Dev.carried (d : Dev) (c : Nat) : Carried :=
  { c := c, cells := d.cyc.cells, retCells := d.par.retCells, dlyRef := d.par.dlyRef, arms := d.cyc.arms, cellOvr := d.cyc.cellOvr,
    lawOvr := d.ctl.misses, laws := d.ctl.laws }

/-- The replayed state takes the place of the own one. -/
def Dev.install (d : Dev) (x : Carried) : Dev :=
  let d := { d with cyc := { d.cyc with cells := x.cells, arms := x.arms, cellOvr := x.cellOvr },
                    par := { d.par with retCells := x.retCells, dlyRef := x.dlyRef },
                    ctl := { d.ctl with laws := x.laws, misses := x.lawOvr } }
  (d.setTwin { d.twin with synced := true, sync := none, shadow := none, asked := false, matchRun := 0, misRun := 0,
                           syncsDone := d.twin.syncsDone + 1 }).raise Ev.DUP_SYNC_DONE

/-- What the state transfer does at the start of cycle k. -/
def Dev.syncBoundary (d : Dev) : Dev :=
  match d.twin.sync with
  | none =>
    if d.twin.role == .standby && d.twin.stage == .sync && !d.twin.synced && !d.twin.asked && !d.twin.syncHeld && d.linkUp 2
        && !d.twin.lostHolder then d.askSnapshot
    else d
  | some y =>
    if d.twin.role == .holder then
      if y.c + 1 ≤ d.cyc.k then (d.setTwin { d.twin with sync := none }).twinUnit 1024 (.snapshot (d.carried y.c)) else d
    else match y.swapAt, d.twin.shadow with
      | some h, some x => if h ≤ d.cyc.k then d.install x else d
      | _, _ => d

/-! ## The boundary (R303 to R320) -/

/-- Twin-agreed changes whose apply cycle has come (R304). -/
def Dev.applyTwinChanges (d : Dev) : Dev :=
  let due := fun (c : TwinChange) => decide (c.apply ≤ d.cyc.k)
  let go := d.twin.changes.filter due
  go.foldl Dev.applyChange (d.setTwin { d.twin with changes := d.twin.changes.filter fun c => !due c })

/-- The stage of a standby from its reasons (R316). -/
def Dev.stageStep (d : Dev) : Dev :=
  let r := d.unfitReasons
  let d := d.setTwin { d.twin with reasons := r }
  if d.twin.role == .standby && d.twin.stage == .ready && r != 0 then (d.setTwin { d.twin with stage := .unfit }).raise Ev.DUP_UNFIT r
  else if d.twin.role == .standby && d.twin.stage == .unfit && r == 0 then (d.setTwin { d.twin with stage := .ready }).raise Ev.DUP_READY
  else d

/-- A claim at the boundary (R310, R322). -/
def Dev.claimDue (d : Dev) : Bool :=
  let x := d.twin
  let both := match x.lastDrone with
    | some b => (b.role == 2 || b.role == 3) && decide (x.leaseSeen + d.pn P.dup_lease_cycles ≤ d.cyc.k)
        && (if d.boot.twinSel then b.role == 2 && !b.ready else x.role == .joining || (x.role == .standby && x.stage == .ready))
    | none => false
  (x.role == .joining && x.claim) || ((x.role == .joining || x.role == .standby) && !x.lostHolder && both)

/-- The lease has expired and no drone came since the one that carried it (R307, R308). -/
def Dev.leaseGone (d : Dev) : Bool :=
  decide (d.twin.lExp ≤ d.cyc.k) && !d.twin.heard

/-- The planned handover at the holder: it takes place, or is cancelled by a missed drone (R320). -/
def Dev.releaseStep (d : Dev) : Dev :=
  match d.twin.rel with
  | some (h, c) =>
    if d.twin.t.off || d.twin.hb.off then (d.setTwin { d.twin with rel := none }).complete c 0x00B0 (stRes Sc.TWIN_TIMEOUT)
    else if h ≤ d.cyc.k then d.releaseNow c
    else d
  | none => d

/-- The twin state at the start of cycle k, in the order lease, demotion, handover, takeover, claim. -/
def Dev.roleStep (d : Dev) : Dev :=
  match d.twin.role with
  | .solo => if d.twin.epoch < d.cellEpoch ∨ d.twin.epoch = 0 then
      let e := d.claimedEpoch
      (d.setTwin { d.twin with oldEpoch := d.twin.epoch, epoch := e, takeovers := d.twin.takeovers + 1, takeCycle := d.cyc.k,
                               claims := d.twin.claims + 1 }).raise Ev.DUP_TAKEOVER e else d
  | .joining => if d.twin.strap then d else if d.claimDue then d.claim else d
  | .holder => match d.twin.demote with
    | some (r, e) => d.demoteNow r e
    | none => d.releaseStep
  | .standby =>
    if d.cyc.segFault || d.flt.stopped || d.twin.lostHolder then d
    else if d.twin.stage != .sync && (match d.twin.twinRel with
        | some h => decide (h ≤ d.cyc.k) && !d.twin.t.off && !d.twin.hb.off
        | none => false) then d.takeOver
    else if d.leaseGone then (if d.twin.stage == .sync then d.loseHolder else d.takeOver)
    else if d.claimDue then d.claim
    else d

/-- The drones of cycle k; without them HB_TX stands still (R306, R311, R523). -/
def Dev.sendDrones (d : Dev) : Dev :=
  let x := d.twin
  if !d.duplex || d.flt.stopped || (d.cyc.segFault && x.role == .holder) then d.setTwin { x with hbTx := false }
  else
    let k := d.cyc.k
    let role := if x.strap ∨ x.lostHolder ∨ x.role = .joining then 3 else if x.role = .holder then 1
      else if x.stage = .sync then 3 else 2
    let ready := x.role == .standby && x.stage == .ready
    let lease := if role = 1 then k + d.pn P.dup_lease_cycles else 0
    let dg := if 2 ≤ k then x.digests.get 0 (k - 2) else 0
    let rel := x.rel.isSome
    let b : Drone :=
      { cycle := k, twinB := d.boot.twinSel, role := role, rel := rel, ready := ready, full := d.fullCapacity, tOk := !x.t.fault,
        hbOk := !x.hb.fault, epoch := x.epoch, lease := lease, relCycle := (x.rel.map (·.1)).getD 0, digest := dg,
        cfgDigest := d.cfgDigest, mism := x.mism.toNat, reeds := d.goodReeds % 256, rNeed := d.rNeed % 256, eCell := d.cellEpoch % 64 }
    let h : HbFrame :=
      { twinB := b.twinB, role := role, rel := rel, ready := ready, full := b.full, cycle := k % 2 ^ 32, epoch := x.epoch,
        lease := lease % 65536, digest := dg.setWidth 32 }
    let d := d.give 2 (.drone b)
    let (line, scr) := hbLine h d.twin.hbScr
    (d.setTwin { d.twin with hbScr := scr, hbTx := true }).emit (.hbFrame h line)

/-- What the duplex unit does at the start of cycle k, before the drones leave. -/
def Dev.twinBoundary (d : Dev) (tx : Tx) : Dev :=
  if !d.duplex then d.roleStep.applyTwinChanges
  else
    let d := if d.cyc.run then d else d.setTwin { d.twin with leaseSeen := d.cyc.k }
    -- the HB digest counts when the DRONE is absent (R315)
    let d := match d.twin.hbDigest with
      | some (c, g) => if d.twin.t.got then d else d.compareDigest c (fun x => x.setWidth 32 == g)
      | none => d
    let d := (d.setTwin { d.twin with hbDigest := none }).closePaths
    let d := ((d.roleStep.raiseEpochs tx).applyTwinChanges).stageStep
    let d := d.syncBoundary
    d.setTwin { d.twin with digests := d.twin.digests.filter fun g => d.cyc.k ≤ g.1 + 8 }

end Sys2Proof.Machine
end

