-- ==== Sys2Proof/Machine/Recorder.lean ====
section
/-!
DEFINITION. Machine/Recorder.lean: the commands and the instants of the recorder (chapter 11).
-/
namespace Sys2Proof.Machine

open Sys2Proof

/-- REC_ARM: 0 SINGLE, 1 AUTO; the recorder's parameters take effect, and it answers L_align and k (R360, R369, R370, R379). -/
def execRecArm (t : Nat) (c : CmdRef) (mode : Nat) (s : State) : Answer :=
  s.upd t true fun _ d => d.runCmd c 0x00D0 fun d =>
    if 1 < mode then (d, stRes Sc.BAD_ARG)
    else if d.acq.armed || d.acq.current.isSome || !d.acq.closing.isEmpty || (d.mode.doms.get {} 8).faulty then (d, stRes Sc.STATE)
    else
      let d := d.takeClass .arm
      match d.armPlan with
      | .error e => (d, stRes e)
      | .ok p => (d.recArm p (mode == 1), ⟨Sc.DONE, wordsBytes [p.lAlign, p.k], []⟩)

/-- REC_DISARM: 0 FINISH, 1 ABORT, at the next modulation-cycle boundary (R372). -/
def execRecDisarm (t : Nat) (c : CmdRef) (mode : Nat) (s : State) : Answer :=
  s.upd t true fun _ d => d.startCmd c 0x00D1 fun d =>
    if 1 < mode then (d, some (stRes Sc.BAD_ARG))
    else if d.acq.disarm.isSome || (!d.acq.armed && d.acq.current.isNone && d.acq.closing.isEmpty) then (d, some (stRes Sc.STATE))
    else (d.setRec { d.acq with disarm := some (c, mode == 1) }, none)

/-- REC_FORCE: a record in the first undecided slot (R367). -/
def execRecForce (t : Nat) (c : CmdRef) (s : State) : Answer :=
  s.upd t true fun _ d => d.startCmd c 0x00D2 fun d =>
    if !d.acq.armed || d.acq.waiting || d.acq.current.isSome || d.acq.forced.isSome then (d, some (stRes Sc.STATE))
    else (d.setRec { d.acq with forced := some (c, d.undecided) }, none)

/-- REC_READ: bytes of a complete record's image (R378). -/
def execRecRead (t : Nat) (c : CmdRef) (id offset length : Nat) (s : State) : Answer :=
  s.upd t true fun _ d => d.runCmd c 0x00D3 fun d =>
    if (d.acq.current.toList ++ d.acq.closing).any (·.id == id) then (d, stRes Sc.BUSY)
    else match d.acq.records.find? (fun r => r.id == id) with
      | none => (d, stRes Sc.NO_RECORD)
      | some r =>
        if recBytes r.chans < offset + length then (d, stRes Sc.RANGE)
        else (d, ⟨Sc.DONE, [], ((recImage d.tModTicks d.addr r).drop offset).take length⟩)

/-- After a wait the next slot is the first that may start a record (R371). -/
def Dev.recFrom (d : Dev) : Dev :=
  if d.acq.waiting then d else d.setRec { d.acq with eligible := max d.acq.eligible (d.ctTicks / 25 + 1) }

/-- REC_RELEASE: a record's segments go back to the pool; identifier 0 releases every complete record (R378). -/
def execRecRelease (t : Nat) (c : CmdRef) (id : Nat) (s : State) : Answer :=
  s.upd t true fun _ d => d.runCmd c 0x00D4 fun d =>
    let gone := d.acq.records.filter fun r => id == 0 || r.id == id
    if id ≠ 0 ∧ ((d.acq.current.toList ++ d.acq.closing).any (·.id == id) || d.recReading id) = true then (d, stRes Sc.BUSY)
    else if id ≠ 0 ∧ gone = [] then (d, stRes Sc.NO_RECORD)
    else
      let segs := (gone.filter fun r => !r.damaged).flatMap (·.segs)
      let hurt := (gone.filter (·.damaged)).flatMap (·.segs)
      let lost := hurt.filter fun n => d.flt.mapped.any fun p => p.1 * 4096 / max 1 d.segBytes == n
      let d := d.setRec { d.acq with
        records := d.acq.records.filter fun r => !(id == 0 || r.id == id),
        used := d.acq.used.filter fun n => !segs.contains n && !(hurt.contains n && !lost.contains n) }
      let d := if d.acq.waiting then d.rearm.recFrom else d
      (d, stRes Sc.DONE)

/-- REC_LIST: identifier, t_trig, cause and bytes of up to 64 records. -/
def execRecList (t : Nat) (c : CmdRef) (first count : Nat) (s : State) : Answer :=
  s.upd t true fun _ d => d.runCmd c 0x00D5 fun d =>
    if 64 < count then (d, stRes Sc.RANGE)
    else
      let rs := (d.acq.records.filter fun r => first ≤ r.id).take count
      (d, byteResult (rs.flatMap fun r =>
        let i := splitInst d.tModTicks r.trig
        bytesLE 4 r.id ++ bytesLE 6 i.1 ++ bytesLE 2 i.2.1 ++ bytesLE 4 i.2.2 ++ bytesLE 2 r.cause ++ bytesLE 6 (recBytes r.chans)))

/-- A REC task forms the sets and takes what is staged; with `lost` samples of staging overrun (R358, R359, R372). -/
def execRecTask (t : Nat) (n lost : Nat) (s : State) : Answer :=
  s.upd t true fun _ d =>
    let d := d.recGather.recFeed
    let d := if 0 < lost ∧ d.acq.hist ≠ [] then d.recLose lost else d
    (d.setRec { d.acq with taken := (d.ctTicks : Int) * 256 }).did (.recBlock n)

/-- The recorder decides every slot whose decision instant, its end plus L_align, has come (R365 to R367). -/
def execRecordSlotDecision (t : Nat) (s : State) : Answer :=
  s.upd t true fun _ d =>
    if !d.acq.armed then d
    else
      let d := d.recFeed.feedEvents
      let upto := (d.ctTicks - d.acq.alignTicks) / 25
      let d := (d.decideSlots d.cfgDigest upto (d.acq.fires.length + 1)).recRearm (upto - 1)
      (d.setRec { d.acq with next := max d.acq.next upto }).recPrune

/-- A record whose post-trigger window has ended is complete in DRAM (R368, R370). -/
def execRecordComplete (t : Nat) (s : State) : Answer :=
  s.upd t true fun _ d => d.recGather.closeRecord

/-- The next pulse due on a line leaves: 64 ticks at its instant, or 128 ticks at once, at least 1 µs after the last one
(R374). -/
def execBusPulseSend (t : Nat) (line : Nat) (s : State) : Answer :=
  s.upd t (line < 4) fun _ d =>
    match d.acq.pulses.find? (fun p => p.1 == line) with
    | none => d
    | some q =>
      let (at_, late) := q.2
      let now : Int := d.ctTicks
      let at_ := if late then now else at_
      let l := d.acq.lines.get {} line
      let start := match l.sentAt with
        | some x => max at_ (x + 625)
        | none => at_
      let d := d.setRec { d.acq with pulses := d.acq.pulses.erase q,
                                     lines := d.acq.lines.set line { l with sentAt := some start, nSent := l.nSent + 1 } }
      let d := d.emit (.busPulse line start (if late then 128 else 64))
      if late then d.raise Ev.REC_BUS_LATE line else d

/-- A pulse on a bus line, its rising edge at TBC `rx`, `width` ticks long (R375). -/
def execBusEdgeReceive (t : Nat) (line width rx : Nat) (s : State) : Answer :=
  s.upd t (line < 4) fun _ d =>
    let mode := d.pvi P.rec_bus_mode line
    let l := d.acq.lines.get {} line
    let at_ := d.tim.ct.at ((rx : Int) * 2 ^ 32)
    let tick := at_ / 2 ^ 32
    let near : Bool := match l.accepted with
      | some x => decide (2 * (tick - x) < 625)
      | none => false
    let l := { l with width := width, edge := rx, nGlitch := if width < 40 then l.nGlitch + 1 else l.nGlitch,
                      nIgnored := if 40 ≤ width ∧ near = true then l.nIgnored + 1 else l.nIgnored }
    if mode = 0 then d
    else if width < 40 ∨ near = true then d.setRec { d.acq with lines := d.acq.lines.set line l }
    else
      let l := { l with accepted := some tick, nValid := l.nValid + 1, nLate := if 96 ≤ width then l.nLate + 1 else l.nLate }
      let d := d.setRec { d.acq with lines := d.acq.lines.set line l }
      let ns : Int := d.pni P.rec_bus_dly_ns line + (if mode = 1 then d.pn P.rec_bus_ofs_ns else 0)
      d.external (fun src => src == 0x9000 + line) (at_ - ns * 2 ^ 32 * 5 / 8) (96 ≤ width)

/-- A TRIGGER block: its first copy goes on and fires the units that watch its sender (R376). -/
def execTriggerBlockReceive (t : Nat) (lane : Nat) (m : TrigMsg) (s : State) : Answer :=
  s.upd t (lane < 8) fun _ d =>
    let d := d.goodBlocks lane 1
    let old := d.acq.casts.filter fun c => decide (d.clk < c.2.2 + ticksOfMs 1)
    let seen := old.any fun c => c.1 == m.src && c.2.1 == m.recId
    if m.gen ≠ d.tim.gen ∨ seen = true ∨ 32 ≤ m.hops then d.setRec { d.acq with fabDrop := d.acq.fabDrop + 1 }
    else
      let d := d.setRec { d.acq with casts := old ++ [(m.src, m.recId, d.clk)], fabRx := d.acq.fabRx + 1 }
      let d := if 32 ≤ m.hops + 1 then d
        else [0, 1, 2, 3].foldl (fun (d : Dev) p => if p = lane / 2 then d else d.give p (.trigger { m with hops := m.hops + 1 })) d
      let inst := ((m.cycle * d.tModTicks + m.tick : Nat) : Int) * 2 ^ 32 + m.tickF
      d.external (fun src => src == 0xA000 + m.src || src == 0xB000) inst false

end Sys2Proof.Machine
end

