-- ==== Sys2Proof/Machine/SafetyUnit.lean ====
section
/-!
DEFINITION. Machine/SafetyUnit.lean: the two safety channels, their pins, restart, trip outputs, hold and diagnostics
(chapter 13), and SAFE_STATUS.
-/
namespace Sys2Proof

/-- The key of a pin in a channel's tables. -/
def SafePin.key : SafePin → Nat
  | .sin n b => 2 * n + bit01 b
  | .srst b => 16 + bit01 b
  | .cfg i => 20 + i

/-- The other channel. -/
def Chan.other : Chan → Chan
  | .a => .b
  | .b => .a

end Sys2Proof

namespace Sys2Proof.Machine

open Sys2Proof

/-! ## Sealed configuration (R423, R424, Table 13-2) -/

/-- Every field holds a valid code. -/
def cfgValid (cfg : Nat) : Bool :=
  (fieldN cfg 6 2 == 1 || fieldN cfg 6 2 == 2) && (fieldN cfg 8 2 == 1 || fieldN cfg 8 2 == 2)

/-- t_code of the input filter, µs. -/
def filterUs (cfg : Nat) : Nat := [100, 200, 500, 1000, 2000, 5000, 10000, 20000].getD (fieldN cfg 0 3) 0
/-- T_disc, ms. -/
def discMs (cfg : Nat) : Nat := [5, 10, 20, 50, 100, 200, 300, 500].getD (fieldN cfg 3 3) 0
/-- The level never accepted below, in ticks: 0.95 × t_code (Table 13-4). -/
def filterLow (cfg : Nat) : Nat := ticksOfUs (filterUs cfg) * 95 / 100
/-- t_filt, in ticks: 1.06 × t_code (Table 13-4). -/
def filterHigh (cfg : Nat) : Nat := ticksOfUs (filterUs cfg) * 106 / 100

def Safe.cfg (s : Safe) : Nat := s.cfgSealed.getD 0
def Safe.tripOn (s : Safe) : Bool := bitN s.cfg 10
def Safe.holdOn (s : Safe) : Bool := bitN s.cfg 11
def Safe.warm (s : Safe) : Bool := fieldN s.cfg 6 2 == 2
def Safe.testedMode (s : Safe) : Bool := fieldN s.cfg 8 2 == 2

/-! ## Channels -/

/-- An accepted level; an input reads low until its level has been accepted. -/
def SafeChan.level (c : SafeChan) (k : Nat) : Bool := c.acc.get false k

/-- Pair `n` in demand in this channel (R419, R422, R436). -/
def SafeChan.pairDemand (trip : Bool) (c : SafeChan) (n : Nat) : Bool :=
  (n < 7 || !trip) && (!c.level (2 * n) || !c.level (2 * n + 1))

/-- The channel is in demand. -/
def SafeChan.demand (trip : Bool) (c : SafeChan) : Bool := (List.range 8).any (c.pairDemand trip)

/-- SIN7 shows the external device open on both pins. -/
def SafeChan.edmOpen (c : SafeChan) : Bool := c.level 14 && c.level 15

def Safe.chan (s : Safe) : Chan → SafeChan
  | .a => s.a
  | .b => s.b
def Safe.setChan (s : Safe) (ch : Chan) (c : SafeChan) : Safe :=
  match ch with
  | .a => { s with a := c }
  | .b => { s with b := c }
/-- The device's safety state: the worse of the two channels' (R425). -/
def Safe.st (s : Safe) : Nat := max s.a.st s.b.st

/-- A block is requested: either request is set (R15, R419). -/
def Safe.sb (s : Safe) : Bool := s.a.request || s.b.request

/-- The lowest pair in demand in either channel. -/
def Safe.demandPair (s : Safe) : Nat :=
  ((List.range 8).find? (fun n => s.a.pairDemand s.tripOn n || s.b.pairDemand s.tripOn n)).getD 0

/-- The commanded levels of one channel's outputs (R433, R436). -/
def Safe.outOf (s : Safe) (c : SafeChan) : Nat :=
  (if c.st = 0 ∧ s.tripOn then 3 else 0) + (if s.hold then 4 else 0) + (if c.st = 0 then 8 else 0)

/-- Requests, outputs and the mirror's records after a change at instant `t` (Table 13-3, Table 16-9). -/
def Safe.settle (s old : Safe) (t : Nat) : Safe :=
  let a := { s.a with request := s.a.st != 0 || !s.pllLocked || !s.a.tested }
  let b := { s.b with request := s.b.st != 0 || !s.b.tested }
  let s := { s with a := a, b := b }
  let out := s.outOf a + 16 * s.outOf b
  let changed := s.st != old.st
  { s with
    out := out
    readback := out
    safeOk := s.st = 0
    tripSince := if s.tripOn ∧ fieldN old.out 0 2 = 3 ∧ fieldN out 0 2 = 0 then some t else if s.st = 0 then none else s.tripSince
    lastChange := if changed then t else s.lastChange
    leftNormal := if s.st = 0 then none else if old.st = 0 then some t else s.leftNormal
    everNormal := s.everNormal || s.st = 0
    demands := if s.st = 1 ∧ old.st = 0 then s.demands + 1 else s.demands
    log := if changed then ((s.st, s.cause, t) :: s.log).take 32 else s.log
    reqAt := if s.sb then (if old.sb then s.reqAt else some t) else none }

/-- The device enters SAFE_FAULT in both channels (R425, R437). A cause whose recovery is the sequence of R429 starts
it, unless the device is already in a fault that only the loss of VIN_CORE ends. -/
def Safe.fault (s : Safe) (cause idx : Nat) : Safe :=
  let rec? := if (cause = 1 ∨ cause = 2) ∧ (s.st ≠ 2 ∨ s.recovery ≠ none) then some (idx, 0) else none
  { s with
    a := { s.a with st := 2, edge := none }
    b := { s.b with st := 2, edge := none }
    cause := if s.st = 2 ∧ s.recovery = none then s.cause else cause
    causeIdx := if s.st = 2 ∧ s.recovery = none then s.causeIdx else idx
    recovery := rec?
    everNormal := true }

/-- From a block request on, the frames that wait on each port stand behind the one of SAFETY_BLOCK_FRAME_START (R94). -/
def Dev.holdFrames (d : Dev) (old s : Safe) : Dev :=
  if old.sb = s.sb then d else { d with down := d.down.map fun (x : Nat × Downlink) => (x.1, { x.2 with hold := s.sb }) }

/-- The events of a change of the safety state (R438, R441), and vector 10 (R393). -/
def Dev.safeEvents (d : Dev) (old s : Safe) : Dev :=
  let d :=
    if old.st = s.st then d
    else if s.st = 2 then d.raise Ev.SAFE_FAULT s.cause
    else if s.st = 0 then d.raise Ev.SAFE_RESTART
    else if old.st = 0 then d.raise Ev.SAFE_DEMAND s.demandPair
    else d
  let d := d.holdFrames old s
  if old.st = s.st then d else (d.emit (.irq 10)).wakeBy .safety

/-- A change of the safety unit at instant `t`, with the events that follow it, while the unit is powered. `f` takes the
device's own time. -/
def State.safeUpd (s : State) (t : Nat) (wf : Bool) (f : Nat → Safe → Safe) (ev : Safe → Safe → Dev → Dev) : Answer :=
  s.updAll t wf fun s =>
    if s.safe.powered then
      let n := (f s.dev.clk s.safe).settle s.safe s.dev.clk
      { s with safe := n, dev := (ev s.safe n s.dev).safeEvents s.safe n }
    else s

def noEv (_ _ : Safe) (d : Dev) : Dev := d

/-! ## Inputs -/

/-- A raw level: the channel's filter starts with a change (R426), and channel A times disagreements at the pins
(R428). -/
def execSafetyInputChange (t : Nat) (ch : Chan) (pin : SafePin) (high : Bool) (s : State) : Answer :=
  s.safeUpd t pin.ok (fun t u =>
    let c := u.chan ch
    if c.raw.get false pin.key = high then u
    else
      let c := { c with raw := c.raw.set pin.key high, since := c.since.set pin.key t }
      let u := u.setChan ch c
      match ch, pin with
      | .a, .sin n _ =>
        let dis := c.raw.get false (2 * n) != c.raw.get false (2 * n + 1)
        if dis && !u.pairOpen.get false n then
          { u with pairOpen := u.pairOpen.set n true, pairSince := u.pairSince.set n t, latchedA := u.latchedA.set n false,
                   pairDis := u.pairDis.modify 0 n (· + 1) }
        else if !dis then { u with pairOpen := u.pairOpen.set n false, latchedA := u.latchedA.set n false }
        else u
      | _, _ => u) noEv

/-- Whether both channels have accepted `lvl` on both pins of pair `p`. -/
def Safe.bothPins (u : Safe) (p : Nat) (lvl : Bool) : Bool :=
  u.a.level (2 * p) == lvl && u.a.level (2 * p + 1) == lvl && u.b.level (2 * p) == lvl && u.b.level (2 * p + 1) == lvl

/-- Steps 1 and 2 of the recovery of R429 (and of R434 on SIN7). -/
def Safe.recover (u : Safe) : Safe :=
  match u.recovery with
  | some (p, 0) => if u.bothPins p false then { u with recovery := some (p, 1) } else u
  | some (p, _) =>
    if u.bothPins p true then
      { u with recovery := none, cause := 0, causeIdx := 0, a := { u.a with st := 1 }, b := { u.b with st := 1 } }
    else u
  | none => u

/-- The conditions of the maintenance hold that are levels (R436). -/
def Safe.holdHolds (u : Safe) : Bool :=
  u.holdOn && u.bothPins 6 false && u.st != 0 && (!u.tripOn || (u.a.st != 0 && u.b.st != 0 && u.a.edmOpen && u.b.edmOpen))

/-- A channel in NORMAL that is in demand enters SAFE (R425); an assertion of SRST before its release
does not count (R430); no demand is timed for R432; the hold ends with its
conditions (R436); SIN7 open ends the wait of R434. -/
def Safe.afterInput (u : Safe) (t : Nat) : Safe :=
  let one := fun (c : SafeChan) =>
    let dm := c.demand u.tripOn
    { c with st := if c.st = 0 ∧ dm then 1 else c.st
             edge := if dm then none else c.edge
             srstVoid := if dm then (c.srstVoid.set 16 true).set 17 true else c.srstVoid
             warmSince := if dm then none else if c.warmSince = none then some t else c.warmSince }
  let u := { u with a := one u.a, b := one u.b }
  let u := u.recover
  let u := { u with hold := u.hold && u.holdHolds }
  if u.bothPins 7 true then { u with tripSince := none } else u

/-- A reset edge judged by one channel at the release of its second SRST pin (R430). -/
def SafeChan.edgeOk (trip : Bool) (c : SafeChan) : Bool :=
  let ok := fun k => !c.srstVoid.get false k && (match c.srstLen.get none k with
    | some n => ticksOfMs 50 ≤ n && n ≤ ticksOfMs 5000
    | none => false)
  let ra := c.srstRel.get 0 16
  let rb := c.srstRel.get 0 17
  ok 16 && ok 17 && max ra rb - min ra rb ≤ ticksOfMs 100 && !c.demand trip && (!trip || c.edmOpen)

/-- The assertions in progress are ignored, and so is every one until both pins have been released (R431). -/
def SafeChan.ignoreSrst (c : SafeChan) : SafeChan := { c with srstVoid := (c.srstVoid.set 16 true).set 17 true, srstWait := true }

/-- A reset edge is rejected (R430): once for both channels' part in it (DEDUCED, log entry 137). -/
def Safe.reject (u : Safe) (t : Nat) : Safe :=
  match u.rejAt with
  | some x => if t ≤ x + ticksOfMs 20 then u else { u with rejects := u.rejects + 1, rejAt := some t }
  | none => { u with rejects := u.rejects + 1, rejAt := some t }

/-- An SRST level accepted by a channel: an assertion is void when a demand is present (R431); the release of the
second pin is judged as a reset edge, and both channels' edges within 10 ms return the device to NORMAL (R430). -/
def Safe.srstAccept (u : Safe) (ch : Chan) (k t : Nat) (high : Bool) : Safe :=
  let c := u.chan ch
  if high then
    let v := c.demand u.tripOn
    let c := { c with srstOn := c.srstOn.set k (some t), srstVoid := c.srstVoid.set k (v || c.srstWait), srstLen := c.srstLen.set k none }
    u.setChan ch (if v then c.ignoreSrst else c)
  else
    let c := { c with srstLen := c.srstLen.set k ((c.srstOn.get none k).map (t - ·)), srstRel := c.srstRel.set k t,
                      srstOn := c.srstOn.set k none }
    let other := if k = 16 then 17 else 16
    let c := { c with srstWait := c.srstWait && c.level other }
    let u := u.setChan ch c
    if c.level other ∨ c.srstLen.get none other = none ∨ c.st ≠ 1 then u
    else
      let c' := { c with srstLen := [] }
      if c.edgeOk u.tripOn then
        match (u.chan ch.other).edge with
        | some e =>
          if t ≤ e + ticksOfMs 10 ∧ (u.chan ch.other).st = 1 then
            { u with a := { u.a with st := 0, edge := none, srstLen := [] }, b := { u.b with st := 0, edge := none, srstLen := [] },
                     resets := u.resets + 1, cause := 0, causeIdx := 0, recovery := none }
          else (u.setChan ch { c' with edge := some t }).reject t
        | none => u.setChan ch { c' with edge := some t }
      else (u.setChan ch c').reject t

/-- A level that has held for the filter time is accepted (R426). A level held for less than the lower bound of Table
13-4 is never accepted. -/
def execInputFilterAccept (t : Nat) (ch : Chan) (pin : SafePin) (s : State) : Answer :=
  s.safeUpd t pin.ok (fun t u =>
    let c := u.chan ch
    let k := pin.key
    let lvl := c.raw.get false k
    if u.cfgSealed = none ∨ c.level k = lvl ∨ t < c.since.get 0 k + filterLow u.cfg then u
    else
      let was := fun n => c.pairDemand u.tripOn n
      let c' := { c with acc := c.acc.set k lvl }
      let u := u.setChan ch c'
      match pin with
      | .srst _ => u.srstAccept ch k t lvl
      | .sin n _ =>
        let u := if ch = .a ∧ c'.pairDemand u.tripOn n ∧ !was n then { u with pairIn := u.pairIn.modify 0 n (· + 1) } else u
        u.afterInput t
      | .cfg _ => u)
    (fun old n d =>
      let d := if n.rejects ≠ old.rejects then d.raise Ev.SAFE_RESET_REJECTED else d
      let void : Bool := match pin with
        | .srst b => n.a.srstVoid.get false (16 + bit01 b) && n.a.level (16 + bit01 b) && !old.a.level (16 + bit01 b)
        | _ => false
      let d := if ch = .a ∧ void then d.raise Ev.SAFE_RESET_STUCK else d
      if old.hold ∧ !n.hold then d.raise Ev.SAFE_HOLD 0 else d)

/-! ## Start-up and the sealed configuration -/

/-- A channel's start-up test ends, once in a power cycle (R420, R423): causes 0x07 and 0x09 on failure, 0x06 on a reading that is invalid or
differs from the other channel's. -/
def execSafetyStartupTestDone (t : Nat) (ch : Chan) (cfg : Nat) (pass : Bool) (s : State) : Answer :=
  s.safeUpd t (cfg < 4096) (fun _ u =>
    let c := { u.chan ch with cfg := cfg, tested := pass }
    if (u.chan ch).tested ∨ bitN u.testRes (if ch = Chan.a then 0 else 8) then u else
    let u := u.setChan ch c
    let u := { u with testRes := u.testRes ||| (if pass then 0 else if ch = Chan.a then 1 else 256) }
    if !pass then u.fault (if ch = Chan.a then 7 else 9) 0
    else if !cfgValid cfg then u.fault 6 0
    else if (u.chan ch.other).tested then
      if (u.chan ch.other).cfg = cfg then { u with cfgSealed := some cfg } else u.fault 6 0
    else u)
    (fun old n d => if n.cause = 6 ∧ old.cause ≠ 6 then d.raise Ev.SAFE_SEAL 6 else d)

/-- Three consecutive rereads that differ from the seal are cause 0x05 (R423). -/
def execSafecfgReread (t : Nat) (ch : Chan) (cfg : Nat) (s : State) : Answer :=
  s.safeUpd t (cfg < 4096) (fun _ u =>
    match u.cfgSealed with
    | none => u
    | some v =>
      let c := u.chan ch
      if cfg = v then u.setChan ch { c with badReads := 0 }
      else
        let u := u.setChan ch { c with badReads := c.badReads + 1 }
        if c.badReads + 1 = 3 then u.fault 5 0 else u)
    (fun old n d => if (n.a.badReads = 3 ∧ old.a.badReads ≠ 3) ∨ (n.b.badReads = 3 ∧ old.b.badReads ≠ 3)
      then d.raise Ev.SAFE_SEAL 5 else d)

/-! ## Discrepancy, restart, trip, hold -/

/-- Channel A latches a disagreement of at least T_disc − 100 µs: cause 0x01 (R428). -/
def execDiscrepancyLatch (t : Nat) (pair : Nat) (s : State) : Answer :=
  s.safeUpd t (pair < 8) (fun t u =>
    if u.pairOpen.get false pair ∧ !u.latchedA.get false pair
        ∧ u.pairSince.get 0 pair + ticksOfMs (discMs u.cfg) ≤ t + ticksOfUs 100 ∧ u.cfgSealed ≠ none then
      ({ u with latchedA := u.latchedA.set pair true }.fault 1 pair).recover
    else u)
    (fun old n d => if n.latchedA.get false pair ∧ !old.latchedA.get false pair then d.raise Ev.SAFE_DISCREPANCY pair else d)

/-- Channel B sees a disagreement outlast 1.06 × T_disc + 0.2 ms without a latch by channel A: cause 0x0A (R428). -/
def execChannelBDiscrepancy (t : Nat) (pair : Nat) (s : State) : Answer :=
  s.safeUpd t (pair < 8) (fun t u =>
    if u.pairOpen.get false pair ∧ !u.latchedA.get false pair
        ∧ u.pairSince.get 0 pair + ticksOfMs (discMs u.cfg) * 106 / 100 + ticksOfUs 200 ≤ t ∧ u.cfgSealed ≠ none then
      u.fault 0x0A pair
    else u) noEv

/-- An SRST assertion held beyond 5 s is ignored, on both pins, until they have been released and asserted again (R431); the event
comes with the first channel's finding. -/
def execSrstStuck (t : Nat) (ch : Chan) (b : Bool) (s : State) : Answer :=
  s.safeUpd t true (fun t u =>
    let c := u.chan ch
    match c.srstOn.get none (16 + bit01 b) with
    | some t0 =>
      if t < t0 + ticksOfMs 5000 then u
      else
        let known := (u.chan ch.other).srstWait && (u.chan ch.other).srstVoid.get false (16 + bit01 b)
        { u.setChan ch c.ignoreSrst with stuck := if known then u.stuck else u.stuck + 1 }
    | none => u)
    (fun old n d => if n.stuck ≠ old.stuck then d.raise Ev.SAFE_RESET_STUCK else d)

/-- With MANUAL_WARM, after power-up, no demand for t_filt and the external device open, the device enters NORMAL
(R432, DEDUCED, log entry 31). -/
def execWarmRestart (t : Nat) (s : State) : Answer :=
  s.safeUpd t true (fun t u =>
    let quiet := fun (c : SafeChan) => c.tested && c.st == 1 && !c.demand u.tripOn && (!u.tripOn || c.edmOpen)
      && (match c.warmSince with
          | some t0 => decide (t0 + filterHigh u.cfg ≤ t)
          | none => false)
    if u.warm ∧ u.cfgSealed ≠ none ∧ !u.everNormal ∧ quiet u.a ∧ quiet u.b then
      { u with a := { u.a with st := 0 }, b := { u.b with st := 0 } }
    else u) noEv

/-- SIN7 does not show the external device open on both pins within T_disc of the trip: cause 0x02 (R434). -/
def execEdmTimeout (t : Nat) (s : State) : Answer :=
  s.safeUpd t true (fun t u =>
    match u.tripSince with
    | some t0 =>
      if u.tripOn ∧ t0 + ticksOfMs (discMs u.cfg) ≤ t ∧ !u.bothPins 7 true then
        ({ u with tripSince := none }.fault 2 7).recover
      else u
    | none => u)
    (fun old n d => if old.tripSince ≠ none ∧ n.tripSince = none then d.raise Ev.SAFE_EDM else d)

/-- A read-back mismatch of an output: cause 0x03 (R435). -/
def execReadbackFault (t : Nat) (output : Nat) (b : Bool) (s : State) : Answer :=
  s.safeUpd t (output < 4) (fun _ u =>
    { u.fault 3 output with rbErr := u.rbErr ||| 2 ^ output, rbFaults := u.rbFaults.modify 0 output (· + 1) })
    (fun _ _ d => d.raise Ev.SAFE_READBACK (output + 4 * bit01 b))

/-- A test pulse of TESTED mode on an output commanded high (R435). -/
def execSoutTestPulse (t : Nat) (output : Nat) (b : Bool) (followed : Bool) (s : State) : Answer :=
  s.safeUpd t (output < 4) (fun _ u =>
    if u.testedMode ∧ bitN u.out (output + 4 * bit01 b) then
      if followed then { u with tests := u.tests.modify 0 output (· + 1) }
      else { u.fault 3 output with rbErr := u.rbErr ||| 2 ^ output, rbFaults := u.rbFaults.modify 0 output (· + 1) }
    else u)
    (fun old n d =>
      let d := if old.testedMode ∧ bitN old.out (output + 4 * bit01 b) then d.emit (.testPulse output b) else d
      if n.rbFaults ≠ old.rbFaults then d.raise Ev.SAFE_READBACK (output + 4 * bit01 b) else d)

/-- The maintenance hold is established after 10 ms out of NORMAL (R436). -/
def execHoldEstablish (t : Nat) (s : State) : Answer :=
  s.safeUpd t true (fun t u =>
    let held : Bool := match u.leftNormal with
      | some t0 => decide (t0 + ticksOfMs 10 ≤ t)
      | none => decide (u.upAt + ticksOfMs 10 ≤ t)
    if u.holdHolds ∧ held then { u with hold := true } else u)
    (fun old n d => if n.hold ∧ !old.hold then d.raise Ev.SAFE_HOLD 1 else d)

/-! ## Diagnostics (R437, Table 13-6) -/

/-- Silence for 100 µs or disagreement for 15 ms is cause 0x0A; a reset edge of one channel that the other has not
followed within 10 ms is rejected (R430). -/
def execCrossMonitorExchange (t : Nat) (aHeard bHeard : Bool) (s : State) : Answer :=
  s.safeUpd t true (fun t u =>
    let run := fun (ok : Bool) (since : Option Nat) => if ok then none else if since = none then some t else since
    let u := { u with silentA := run aHeard u.silentA, silentB := run bHeard u.silentB,
                      differ := run (u.a.st = u.b.st) u.differ }
    let late : Option Nat → Nat → Bool := fun since lim => match since with
      | some t0 => decide (t0 + lim ≤ t)
      | none => false
    let stale : SafeChan → Bool := fun c => late c.edge (ticksOfMs 10)
    let u := if stale u.a ∨ stale u.b then
        ({ u with a := { u.a with edge := if stale u.a then none else u.a.edge },
                  b := { u.b with edge := if stale u.b then none else u.b.edge } }).reject t
      else u
    if late u.silentA (ticksOfUs 100) ∨ late u.silentB (ticksOfUs 100) ∨ late u.differ (ticksOfMs 15) then u.fault 0x0A 0 else u)
    (fun old n d => if n.rejects ≠ old.rejects then d.raise Ev.SAFE_RESET_REJECTED else d)

/-- Channel B's lockstep comparator: cause 0x08 (R419, R437). -/
def execLockstepMismatch (t : Nat) (s : State) : Answer :=
  s.safeUpd t true (fun _ u => u.fault 8 0) noEv

/-- PER and the ISO disagree beyond ±8 % for 2 ms: cause 0x0B. -/
def execClockCrossCheckFail (t : Nat) (perKHz isoKHz : Nat) (s : State) : Answer :=
  s.safeUpd t true (fun _ u =>
    { u.fault 0x0B 0 with perFreq := BitVec.ofNat 32 perKHz, isoFreq := BitVec.ofNat 32 isoKHz }) noEv

/-- Channel B's background ROM CRC and RAM march end; a failure is cause 0x09. -/
def execBackgroundMarch (t : Nat) (pass : Bool) (s : State) : Answer :=
  s.safeUpd t true (fun _ u => if pass then { u with marches := u.marches + 1 } else u.fault 9 0) noEv

/-! ## SAFE_STATUS (R441, Table 13-9) -/

/-- Demands released, reset edge awaited. -/
def Safe.armed (u : Safe) : Bool := u.st == 1 && !u.a.demand u.tripOn && !u.b.demand u.tripOn

/-- SAFECFG and its seal code as a channel read them when its start-up began (R423, R424); nothing before. -/
def Safe.sealOf (u : Safe) (ch : Chan) : Nat × Nat :=
  let c := u.chan ch
  if c.tested || bitN u.testRes (if ch = Chan.a then 0 else 8) then (c.cfg, sealCode c.cfg) else (0, 0)

/-- The 16 bytes of Table 13-9 at instant `now`. -/
def Safe.statusBytes (u : Safe) (now : Nat) : List Byte :=
  [BitVec.ofNat 8 (u.st + 4 * u.a.st + 16 * u.b.st + 64 * bit01 u.armed + 128 * bit01 u.hold),
   BitVec.ofNat 8 (maskOf 8 (fun n => u.a.pairDemand u.tripOn n || u.b.pairDemand u.tripOn n)),
   BitVec.ofNat 8 (maskOf 8 (fun n => u.pairOpen.get false n)),
   BitVec.ofNat 8 (u.out % 16 + 16 * (u.rbErr % 16))]
  ++ bytesLE 2 (u.sealOf .a).2 ++ bytesLE 2 (u.sealOf .b).2
  ++ [BitVec.ofNat 8 u.cause, BitVec.ofNat 8 (u.causeIdx % 64 + 64 * bit01 u.safeOk)]
  ++ bytesLE 2 u.demands.toNat ++ bytesLE 4 (min ((now - u.lastChange) / 625000) (2 ^ 32 - 1))

/-- SAFE_STATUS returns the safety mirror. -/
def execSafeStatus (t : Nat) (c : CmdRef) (s : State) : Answer :=
  s.upd t true fun s d => d.runCmd c 0x00F0 fun d => (d, ⟨Sc.DONE, s.safe.statusBytes d.clk, []⟩)

end Sys2Proof.Machine
end

