-- ==== Sys2Proof/Machine/Time.lean ====
section
/-!
DEFINITION. Machine/Time.lean: control time over the fabric, the time root, and wall time by PTP (chapter 10).
Ports are keyed as TIME.SOURCE codes them: 0 E, 1 W, 2 U, 3 T. Times are in units of 2^−32 tick.
-/
namespace Sys2Proof.Machine

open Sys2Proof

/-- Picoseconds as 2^−32 tick. -/
def psTo32 (ps : Int) : Int := ps * 2 ^ 32 / 1600
/-- Nanoseconds as 2^−32 tick. -/
def nsTo32 (ns : Int) : Int := ns * 2 ^ 32 * 5 / 8
/-- 2^−32 tick as picoseconds. -/
def toPs (x : Int) : Int := x * 1600 / 2 ^ 32
/-- Parts per million as 2^−40. -/
def ppm40 (n : Int) : Int := n * 2 ^ 40 / 1000000

/-! ## Root generations (R347) -/

/-- Generation `g` is higher than `h`. -/
def genHigher (g h : Nat) : Bool :=
  let x := (g + 65536 - h) % 65536
  1 ≤ x && x ≤ 32767

/-- The candidate's root is preferred to the one followed: a higher generation, or the same with a lower order distance,
or the same with a lower address. -/
def TimeUnit.prefers (u : TimeUnit) (m : TimeMsg) : Bool :=
  !u.known || genHigher m.gen u.gen ||
    (m.gen == u.gen && (decide (m.m < u.rootM) || (m.m == u.rootM && decide (m.root < u.root))))

/-- The candidate is of the root that is followed. -/
def TimeUnit.same (u : TimeUnit) (m : TimeMsg) : Bool := u.known && m.gen == u.gen && m.m == u.rootM && m.root == u.root

/-! ## Source (R337) -/

/-- Candidates that may be the source, by port. -/
def Dev.usable (d : Dev) (port : Nat) : Option Candidate :=
  match d.tim.cand.get none port with
  | some c =>
    if d.tim.same c.msg && decide (d.cyc.k ≤ c.cycle + 4) && decide (c.bound ≤ 5000) && !(port == 3 && c.msg.tCross) then some c else none
  | none => none

/-- The lowest path bound, E before W before U before T. -/
def Dev.pickSource (d : Dev) : Option Nat :=
  (List.range 4).foldl (fun best p => match d.usable p with
    | none => best
    | some c => match best with
      | none => some p
      | some b => match d.usable b with
        | some cb => if c.bound < cb.bound then some p else best
        | none => some p) none

/-- The source taken anew; its bound above 3,000 ps raises EV_TIME_PATH_LONG (R342). Without one the last path stands
(R340); the run of R339 starts again with another source. -/
def Dev.reselect (d : Dev) : Dev :=
  let u := d.tim
  let src := if u.isRoot then none else d.pickSource
  match src, src.bind d.usable with
  | some p, some c =>
    let d' := { d with tim := { u with src := src, srcBound := c.bound, srcHops := c.msg.hops + (if p = 3 then 0 else 1),
                                       srcCross := p == 3 || c.msg.tCross, lossCycles := 0, outRun := if u.src = src then u.outRun else 0 } }
    if 3000 < c.bound ∧ u.srcBound ≤ 3000 then d'.raise Ev.TIME_PATH_LONG c.bound else d'
  | _, _ => { d with tim := { u with src := none } }

/-! ## Servo, steps and validity (R338 to R340) -/

/-- The step threshold. -/
def Dev.stepLimit (d : Dev) : Int := nsTo32 (d.pv P.time_ct_step_ns)

/-- A step to the third message beyond the threshold (R339). Outside DE-ENERGISED, with control time valid, the chains
are reset, the cycle counts as an overrun and the cells are realigned. -/
def Dev.ctStep (d : Dev) (tRx vRx : Int) : Dev :=
  let was := d.tim.ctValid
  let d := d.ctMoved ((vRx - d.tim.ct.at tRx) / 2 ^ 32)
  let d := { d with tim := { d.tim with ct := { d.tim.ct with t0 := tRx, v0 := vRx }, outRun := 0, goodRun := 0,
                                        steps := d.tim.steps + 1, lastAcc := some tRx } }
  let d := d.raise Ev.TIME_CT_STEP
  if d.mode.conv ≠ .deEnergised ∧ was then d.ctStepped else d

/-- The servo of R338 for an accepted message. -/
def Dev.servo (d : Dev) (tRx e : Int) : Dev :=
  let u := d.tim
  let u := match u.lastAcc with
    | none => u
    | some t0 =>
      if tRx ≤ t0 then u
      else
        let f := e * 2 ^ 40 / (tRx - t0)
        let r := clampInt (-(ppm40 300)) (ppm40 300) (u.rInt + f / 16)
        let sl := ppm40 (d.pv P.time_ct_slew_ppm)
        { u with rInt := r, ct := u.ct.rate tRx (r + clampInt (-sl) sl (f / 2)) }
  let good := decide (e.natAbs ≤ 5 * 2 ^ 32 / 4)
  let run := if good then u.goodRun + 1 else 0
  let d' := { d with tim := { u with lastAcc := some tRx, outRun := 0, goodRun := run, lastErr := e } }
  if 64 ≤ run ∧ !u.ctValid then ({ d' with tim := { d'.tim with ctValid := true } }).raise Ev.TIME_CT_VALID else d'

/-- A message of the source: servo, outlier or step. -/
def Dev.fromSource (d : Dev) (tRx vRx e : Int) : Dev :=
  if d.stepLimit < e.natAbs then
    if d.tim.outRun < 2 then
      ({ d with tim := { d.tim with outRun := d.tim.outRun + 1, goodRun := 0, outliers := d.tim.outliers + 1, lastErr := e } }).raise Ev.TIME_CT_OUTLIER
    else ({ d with tim := { d.tim with lastErr := e } }).ctStep tRx vRx
  else d.servo tRx e

/-! ## Wall time from the fabric (R349) -/

/-- The wall view taken from the source's message. -/
def Dev.wallFromFabric (d : Dev) (m : TimeMsg) (tRx din : Int) : Dev :=
  if m.wallValid then
    { d with tim := { d.tim with wall := ⟨tRx, ofStamp m.wall + din, d.tim.ct.rho + m.wRate⟩, wallValid := true,
                                 wallHold := m.wallHold, wallRef := m.wallRef, wallFab := true } }
  else
    { d with tim := { d.tim with wallFab := false, wallValid := d.tim.wallValid && !d.tim.wallFab } }

/-! ## Ring closure (R343) -/

/-- A difference of the two ring candidates; the mean over 256 is judged. The event carries D, the hops by E and by W, and a_est, in ps
(DESIGN CHOICE, log entry 135). -/
def Dev.asym (d : Dev) : Dev :=
  match d.tim.cand.get none 0, d.tim.cand.get none 1 with
  | some e, some w =>
    if d.tim.same e.msg && d.tim.same w.msg then
      let sum := d.tim.asymSum + (e.err - w.err)
      if d.tim.asymN + 1 < 256 then { d with tim := { d.tim with asymSum := sum, asymN := d.tim.asymN + 1 } }
      else
        let D := sum / 256
        let hs : Int := (e.msg.hops + w.msg.hops : Nat)
        let est := if hs = 0 then (Config.freeValue 32 d.openIx).toInt else 2 * D / hs
        let d := if hs = 0 then d.drawn else d
        let d := { d with tim := { d.tim with asymSum := 0, asymN := 0, asymLast := D, asymEst := est } }
        if 5 * 2 ^ 32 / 2 < D.natAbs then
          d.raiseLimB Ev.TIME_ASYM 0 (ticksOfS 10)
            (bytesLE 4 (wrapN 32 (toPs D)) ++ bytesLE 1 e.msg.hops ++ bytesLE 1 w.msg.hops ++ bytesLE 4 (wrapN 32 (toPs est)))
        else d
    else d
  | _, _ => d

/-! ## Candidates -/

/-- A candidate of a port: taken when its root is the one followed or preferred to it (R347), stored, and used when its
port is the source. A root that sees a preferred candidate gives up the role at the next boundary. -/
def Dev.candidate (d : Dev) (port lane : Nat) (m : TimeMsg) (bound : Nat) (tRx vRx din : Int) : Dev :=
  if m.tMod ≠ d.tModTicks then
    ({ d with tim := { d.tim with outliers := d.tim.outliers + 1 } }).raise Ev.TIME_CT_OUTLIER
  else
    let u := d.tim
    let u := { u with listened := u.listened || u.listening }
    let higher := !u.known || genHigher m.gen u.gen
    let u := if u.prefers m then
        { u with yieldPending := u.yieldPending || u.isRoot, known := true, gen := m.gen, root := m.root, rootM := m.m,
                 claimCycles := if higher then 0 else u.claimCycles, cand := [] }
      else u
    let d := { d with tim := u }
    if !u.same m || u.isRoot && !u.yieldPending then d
    else
      let e := vRx - u.ct.at tRx
      let c : Candidate := { msg := m, bound := bound, err := e, cycle := d.cyc.k, lane1 := lane % 2 == 1 }
      let counts := decide (bound ≤ 5000) && !(port == 3 && m.tCross)      -- R337, R346
      let d := { d with tim := { u with cand := u.cand.set port (some c), claimCycles := if counts then 0 else u.claimCycles, linkAt := u.linkAt.set lane (e, bound) } }
      let d := if port < 2 then d.asym else d
      let d := d.reselect
      if d.tim.src = some port ∧ !d.tim.isRoot then (d.fromSource tRx vRx e).wallFromFabric m tRx din else d

/-- Control time of a message's sender at its transmit instant. -/
def Dev.msgTime (d : Dev) (m : TimeMsg) : Int := ((m.cycle * d.tModTicks + m.tick : Nat) : Int) * 2 ^ 32 + m.tickF

/-- A TIME block arrives on a lane of E, W or U (R335). -/
def execTimeBlockReceive (t : Nat) (lane tRx : Nat) (m : TimeMsg) (s : State) : Answer :=
  s.upd t (lane < 8 && lane / 2 != 2) fun _ d =>
    let port := timePort (lane / 2)
    let d2 : Int := 2 * (d.laneDelay lane : Int) + d.pvi P.time_link_asym_ps lane
    let din := d2 * 2 ^ 32 * (2 ^ 40 + d.tim.ct.rho) / (2 * 1600 * 2 ^ 40)
    let rx : Int := (tRx : Int) * 2 ^ 16
    (d.goodBlocks lane 1).candidate port lane m (m.acc + 125) rx (d.msgTime m + din) din

/-- A time relay arrives from the twin, its time evaluated at the own TBC `tRx` (R336, DEDUCED, log entry 11). -/
def execTimeRelayReceive (t : Nat) (tRx : Nat) (m : TimeMsg) (s : State) : Answer :=
  s.upd t true fun _ d => d.candidate 3 4 m (m.acc + 500) ((tRx : Int) * 2 ^ 16) (d.msgTime m) 0

/-! ## Sending (R334, R336) -/

/-- A TIME block after the key window on a port E, W or U that is UP (R334), due `frac` of a tick of 2^−16 after `t`. -/
def execTimeBlockSend (t : Nat) (port frac : Nat) (s : State) : Answer :=
  s.upd t (port < 3) fun _ d =>
    if d.tim.isRoot || d.tim.lastAcc.isSome then
      d.giveAt (if port = 2 then 3 else port) (d.instant frac) (.time (d.timeMsg (d.tbc * 65536)))
    else d

/-- The time relay to the twin, without a source when the source is the twin itself (R336). -/
def execTimeRelaySend (t : Nat) (s : State) : Answer :=
  s.upd t true fun _ d =>
    let m := d.timeMsg (d.tbc * 65536)
    if d.duplex then d.toTwin 1 64 (.timeRelay { m with acc := if d.tim.src = some 3 then 0xFFFF else m.acc }) else d

/-! ## Loss, root and wrap (R340, R344 to R348) -/

/-- No source for time.root_loss_cyc cycles: control time becomes invalid (R340). -/
def execSourceLossTimeout (t : Nat) (s : State) : Answer :=
  s.upd t true fun _ d =>
    if !d.tim.isRoot && d.tim.ctValid && d.tim.src.isNone && decide (d.pn P.time_root_loss_cyc ≤ d.tim.lossCycles) then
      ({ d with tim := { d.tim with ctValid := false, goodRun := 0 } }).raise Ev.TIME_CT_INVALID
    else d

/-- The device becomes root with a generation, its own control time continued at ρ = 0; valid returns with it (R340). -/
def Dev.becomeRoot (d : Dev) (gen m : Nat) : Dev :=
  let back := d.tim.known && !d.tim.ctValid
  let d := { d with tim := { d.tim with isRoot := true, known := true, gen := gen % 65536, root := d.addr, rootM := m, src := none, srcBound := 0,
                                        srcHops := 0, srcCross := false, cand := [], ct := d.tim.ct.rate d.tbc32 0, ctValid := true, lossCycles := 0,
                                        claimCycles := 0, yieldPending := false, listening := false } }
  if back then d.raise Ev.TIME_CT_VALID else d

/-- Control time starts at zero now (R344, R345). -/
def Dev.ctZero (d : Dev) : Dev :=
  let d := d.ctMoved (-(d.ctNow / 2 ^ 32))
  { d with tim := { d.tim with ct := ⟨d.tbc32, 0, 0⟩ } }

/-- The listen time of the configured root ends: without a candidate, control time is established at zero with
generation 1 (R345). -/
def execRootListenExpiry (t : Nat) (s : State) : Answer :=
  s.upd t true fun _ d =>
    if !d.tim.listening then d
    else if d.tim.listened then { d with tim := { d.tim with listening := false } }
    else d.ctZero.becomeRoot 1 0

/-- An arm-lead holder at order distance m claims the lost root role (R346). -/
def execRootClaim (t : Nat) (s : State) : Answer :=
  s.upd t true fun _ d =>
    match d.rootDistance with
    | some m =>
      if 1 ≤ m ∧ !d.tim.isRoot ∧ d.leads ∧ (m + 1) * d.pn P.time_root_loss_cyc ≤ d.tim.claimCycles then
        (d.becomeRoot (d.tim.gen + 1) m).raise Ev.TIME_ROOT_CHANGE
      else d
    | none => d

/-- In DE-ENERGISED with the cycle number above 2^47, the root re-establishes control time from zero (R344). -/
def Dev.wrapRestart (d : Dev) : Dev :=
  if d.tim.isRoot ∧ d.mode.conv = .deEnergised ∧ 2 ^ 47 < d.ctCycle d.ctNow then
    d.ctZero.becomeRoot (d.tim.gen + 1) d.tim.rootM
  else d

/-- Once per day above 2^47 the root warns (R344). -/
def execCtWrapNear (t : Nat) (s : State) : Answer :=
  s.upd t true fun _ d =>
    if d.tim.isRoot ∧ 2 ^ 47 < d.ctCycle d.ctNow then (d.raiseLim Ev.TIME_CT_WRAP_NEAR 0 (ticksOfS 86400)).wrapRestart else d

/-! ## Wall time by PTP (R349 to R354) -/

/-- The step policy in force: REFUSE, or HOLDOVER (R353). -/
def Dev.holdsOver (d : Dev) : Bool :=
  let p := d.pv P.time_policy
  p == 2 || (p == 0 && decide (64 < d.pv P.time_domain_size))

/-- The wall view stepped by an offset of 2^−16 ns. -/
def Dev.wallStep (d : Dev) (ofs : Int) : Dev :=
  let t := d.tbc32
  { d with tim := { d.tim with wall := { d.tim.wall with t0 := t, v0 := d.tim.wall.at t + ofs * (5 * 2 ^ 16) / 8 } } }

/-- The wall rate, held to time.wall_slew_ppm of the own TBC. -/
def Dev.wallRate (d : Dev) (rate : Int) : Dev :=
  let sl := ppm40 (d.pv P.time_wall_slew_ppm)
  { d with tim := { d.tim with wall := d.tim.wall.rate d.tbc32 (clampInt (-sl) sl rate) } }

/-- The egress and ingress corrections of a port in ps: the constants of Table 10-3 and the integrator's time.eth_ext_ps (R351). -/
def Dev.macCorr (d : Dev) (port1 : Bool) : Nat × Nat :=
  let c : Nat × Nat := match Config.ethSpeed port1 % 3 with
    | 0 => (64000, 136000)
    | 1 => (38400, 70400)
    | _ => (44800, 80000)
  let ext := fun (i : Nat) => d.pni P.time_eth_ext_ps (2 * bit01 port1 + i)
  (c.1 + ext 0, c.2 + ext 1)

/-- A mean path delay in ps and an offset in 2^−16 ns from MAC stamps, corrected to the SerDes pins: an egress stamp is later and an
ingress stamp earlier by its correction. Each of the two own stamps of a path delay counts half, and the Sync's ingress stamp whole
(R351; DEDUCED, log entry 134). -/
def Dev.pinPath (d : Dev) (port1 : Bool) (path : Nat) : Nat := path - ((d.macCorr port1).1 + (d.macCorr port1).2) / 2
def Dev.pinOffset (d : Dev) (port1 : Bool) (offset : Int) : Int :=
  offset + (((d.macCorr port1).2 : Int) - (d.macCorr port1).1) * 65536 / 2000

/-- A Sync gives the offset of the master from the own wall time, 2^−16 ns, and the mean path delay, ps, as the MAC's stamps have them,
and the rate that the servo asks for (R351 to R353). A device that takes wall time from the fabric only checks it (R349). -/
def execPtpSyncReceive (t : Nat) (port1 : Bool) (offset rate : Int) (path : Nat) (s : State) : Answer :=
  s.upd t true fun _ d =>
    if !bitN (d.pn P.time_ptp_port_en) (bit01 port1) then d
    else
      let offset := d.pinOffset port1 offset
      let d := { d with tim := { d.tim with lastOfs := offset, meanPath := d.pinPath port1 path } }
      let lim := d.pv P.time_step_limit_ns * 65536
      if d.tim.wallFab && !d.tim.isRoot then
        if d.pn P.time_wall_check_ns * 65536 < offset.natAbs then d.raise Ev.TIME_WALL_DIFF else d
      else if !d.tim.wallValid then
        let d := d.wallStep offset
        (({ d with tim := { d.tim with wallValid := true, following := true, pendStep := none, withinRun := 0,
                                       wallHold := false, wallRef := false, holdSince := none } }).wallRate rate).raise Ev.TIME_PTP_LOCK
      else if (offset.natAbs : Int) ≤ lim then
        let run := d.tim.withinRun + 1
        let resume := !d.tim.wallHold || d.tim.pendStep.isNone || decide (16 ≤ run)
        let d := { d with tim := { d.tim with withinRun := run } }
        if resume then
          ({ d with tim := { d.tim with following := true, wallHold := false, wallRef := false, pendStep := none, holdSince := none } }).wallRate rate
        else d
      else
        let d := { d with tim := { d.tim with withinRun := 0, pendStep := some offset } }
        if d.holdsOver then
          let d' := { d with tim := { d.tim with following := false, wallHold := true, refused := d.tim.refused + (if d.tim.wallHold then 0 else 1),
                                                 holdSince := if d.tim.holdSince = none then some d.clk else d.tim.holdSince } }
          if d.tim.wallHold then d' else d'.raise Ev.TIME_HOLDOVER
        else
          let d' := ({ d with tim := { d.tim with wallRef := true, refused := d.tim.refused + (if d.tim.wallRef then 0 else 1) } }).wallRate
            (if 0 < offset then ppm40 500 else -(ppm40 500))
          if d.tim.wallRef then d' else d'.raise Ev.TIME_STEP_REFUSED

/-- TIME_WALL_STEP applies the pending step (R353). -/
def execTimeWallStep (t : Nat) (c : CmdRef) (s : State) : Answer :=
  s.upd t true fun _ d => d.runCmd c 0x00C0 fun d =>
    match d.tim.pendStep with
    | none => (d, stRes Sc.STATE)
    | some ofs =>
      let d := d.wallStep ofs
      ({ d with tim := { d.tim with pendStep := none, wallRef := false, wallHold := false, following := true, holdSince := none } }, stRes Sc.DONE)

/-- The best master clock algorithm's choice after an Announce; a change is EV_TIME_MASTER_CHANGE (R354). -/
def execAnnounceReceive (t : Nat) (port1 : Bool) (best : BitVec 64) (portNumber removed : Nat) (s : State) : Answer :=
  s.upd t true fun _ d =>
    if !bitN (d.pn P.time_ptp_port_en) (bit01 port1) then d
    else
      let changed := d.tim.master != some best || d.tim.lostMaster.isSome
      let d := { d with tim := { d.tim with master := some best, masterPort := portNumber, stepsRemoved := removed, lostMaster := none, lastAnn := d.clk } }
      if changed then
        ({ d with tim := { d.tim with masters := d.tim.masters + 1 } }).raise Ev.TIME_MASTER_CHANGE
      else d

/-- No Announce within announceReceiptTimeout, 3 intervals of 1 s (Table 10-2): the wall view runs at its last rate (R354). -/
def execAnnounceTimeout (t : Nat) (s : State) : Answer :=
  s.upd t true fun _ d =>
    if d.tim.master.isSome && d.tim.lostMaster.isNone && decide (d.tim.lastAnn + ticksOfS 3 ≤ d.clk) then
      ({ d with tim := { d.tim with lostMaster := some d.clk, wallHold := true, following := false,
                                    holdSince := if d.tim.holdSince = none then some d.clk else d.tim.holdSince } }).raise Ev.TIME_MASTER_LOST
    else d

/-- time.holdover_max_s without a master: wall time becomes invalid (R354). -/
def execHoldoverLimit (t : Nat) (s : State) : Answer :=
  s.upd t true fun _ d =>
    match d.tim.lostMaster with
    | some t0 =>
      if t0 + ticksOfS (d.pn P.time_holdover_max_s) ≤ d.clk ∧ d.tim.wallValid then
        ({ d with tim := { d.tim with wallValid := false } }).raise Ev.TIME_WALL_INVALID
      else d
    | none => d

/-- The root PLL locks: the TBC starts at 0 (R329), and channel A may release its block request (R420). -/
def execRootPllLock (t : Nat) (s : State) : Answer :=
  s.updAll t true fun s =>
    let n := ({ s.safe with pllLocked := s.safe.powered } : Safe).settle s.safe s.dev.clk
    let d := if s.dev.tim.running then s.dev else { s.dev with tim := { s.dev.tim with running := true, tbc0 := s.dev.clk } }
    { s with safe := n, dev := d.holdFrames s.safe n }

end Sys2Proof.Machine
end

