-- ==== Sys2Proof/Machine/Twin.lean ====
section
/-!
DEFINITION. Machine/Twin.lean: the commands of the duplex unit (chapter 9).
-/
namespace Sys2Proof.Machine

open Sys2Proof

/-- The holder sends its committed set to a joining twin whose configuration digest differs (R323). -/
def Dev.offerConfig (d : Dev) (b : Drone) : Dev :=
  if d.twin.role == .holder && b.role == 3 && b.cfgDigest != d.cfgDigest then
    if d.twin.cfgSent then d
    else (d.setTwin { d.twin with cfgSent := true }).toTwin 3 1024 (.params d.par.committed.vals)
  else d.setTwin { d.twin with cfgSent := false }

/-- A DRONE block on port T (R302, R306, R309, R315). -/
def execDroneReceive (t : Nat) (lane : Nat) (b : Drone) (s : State) : Answer :=
  s.upd t ((lane == 4 || lane == 5) && 1 ≤ b.role && b.role ≤ 3) fun _ d =>
    let d := d.goodBlocks lane 1
    if !d.duplex then d
    else if b.twinB == d.boot.twinSel then d.strapConflict
    else
      let newer : Bool := match d.twin.lastDrone with
        | some x => decide (x.cycle ≤ b.cycle)
        | none => true
      let d := d.setTwin { d.twin with t := if b.cycle = d.cyc.k then { d.twin.t with got := true } else d.twin.t,
                                       tAt := if b.cycle = d.cyc.k then (d.clk - d.cyc.tk) * 8 / 5 else d.twin.tAt,
                                       lastDrone := if newer then some b else d.twin.lastDrone }
      let d := (d.hearDrone b).offerConfig b
      if 2 ≤ b.cycle then d.compareDigest (b.cycle - 2) (fun x => x == b.digest) else d

/-- The value congruent to `low` modulo 2^`bits` that is nearest to `k`. -/
def nearestTo (bits low k : Nat) : Nat :=
  let m : Int := 2 ^ bits
  let e := ((low : Int) - k + m / 2) % m - m / 2
  ((k : Int) + e).toNat

/-- An HB frame (R302, R306, R312, R315). -/
def execHbFrameReceive (t : Nat) (f : HbFrame) (s : State) : Answer :=
  s.upd t (1 ≤ f.role && f.role ≤ 3 && f.cycle < 2 ^ 32 && f.lease < 2 ^ 16) fun _ d =>
    if !d.duplex then d
    else if !f.ok then d.setTwin { d.twin with hbErrs := d.twin.hbErrs + 1 }
    else if f.twinB == d.boot.twinSel then d.strapConflict
    else
      let c := nearestTo 32 f.cycle d.cyc.k
      let lease := if f.role = 1 then nearestTo 16 f.lease d.cyc.k else 0
      let old := d.twin.lastDrone.getD
        { cycle := 0, twinB := f.twinB, role := f.role, rel := false, ready := false, full := false, tOk := true,
           hbOk := true, epoch := 0, lease := 0, relCycle := 0, digest := 0, cfgDigest := 0, mism := 0, reeds := 0, rNeed := 0, eCell := 0 }
      let b : Drone := { old with cycle := c, twinB := f.twinB, role := f.role, rel := f.rel, ready := f.ready, full := f.full, epoch := f.epoch,
                                  lease := lease, relCycle := if f.rel then old.relCycle else 0 }
      let d := d.setTwin { d.twin with hb := if c = d.cyc.k then { d.twin.hb with got := true } else d.twin.hb,
                                       hbAt := if c = d.cyc.k then (d.clk - d.cyc.tk) * 8 / 5 else d.twin.hbAt,
                                       hbDigest := if c = d.cyc.k ∧ 2 ≤ c then some (c - 2, f.digest) else d.twin.hbDigest,
                                       lastDrone := if old.cycle < c then some b else d.twin.lastDrone }
      d.hearDrone b

/-- A TWIN_CMD unit of R304 or R324. A change that comes after its apply cycle takes effect at once. -/
def execTwinCmdReceive (t : Nat) (u : TwinCmd) (s : State) : Answer :=
  s.upd t (twinCmdOk u) fun _ d =>
    match u with
    | .change c =>
      let d := if c.apply ≤ d.cyc.k then d.applyChange c
        else if d.twin.changes.contains c then d
        else d.setTwin { d.twin with changes := d.twin.changes ++ [c] }
      d.twinUnit 64 (.twinCmd (.changeAck c))
    | .changeAck _ => d
    | .snapRequest =>
      if d.twin.role == .holder then
        let c := d.cyc.k + 4
        (d.setTwin { d.twin with sync := some ⟨c, none⟩ }).twinUnit 64 (.twinCmd (.snapCycle c))
      else d
    | .snapCycle c =>
      if d.twin.role == .standby && d.twin.stage == .sync && !d.twin.synced then d.setTwin { d.twin with sync := some ⟨c, none⟩ } else d

/-- The health report leaves: every 10 ms, and after a change of state, stage or reason (R317). -/
def execHealthReportSend (t : Nat) (s : State) : Answer :=
  s.upd t true fun _ d =>
    if !d.duplex then d
    else
      let d := d.stageStep
      let r := d.healthReport
      (d.setTwin { d.twin with own := r, reportsTx := d.twin.reportsTx + 1 }).twinUnit 64 (.health r)

/-- The twin's health report (R317). -/
def execHealthReportReceive (t : Nat) (r : HealthReport) (s : State) : Answer :=
  s.upd t true fun _ d =>
    if d.duplex then
      let d := d.setTwin { d.twin with twinHealth := some r, reportsRx := d.twin.reportsRx + 1 }
      let minor := fieldN d.boot.version.toNat 8 8
      if d.pairs && decide (r.fwMinor < minor) then { d with boot := { d.boot with compatMinor := some r.fwMinor } } else d
    else d

/-- The holder's committed set, taken by a joining standby into both copies; the join starts again (R323). -/
def execParamUnitReceive (t : Nat) (vals : List (Nat × Int)) (s : State) : Answer :=
  s.upd t true fun _ d =>
    if d.duplex && d.twin.role == .standby && d.twin.stage == .sync && !d.twin.synced then
      let mine := d.par.committed.vals.filter fun v => cfgExcluded (v.1 / 65536)
      let theirs := vals.filter fun v => !cfgExcluded (v.1 / 65536) && (paramDef? (v.1 / 65536)).isSome
      let set : Tab Int := (mine ++ theirs).foldl (fun (m : Tab Int) v => m.set v.1 v.2) []
      let copy : CfgCopy := { gen := max d.par.copy0.gen d.par.copy1.gen + 1, vals := set, good := true }
      let d := { d with par := { d.par with copy0 := copy, copy1 := copy, active := set, waiting := [] } }.sarFollow.raise Ev.DUP_CFG_COPY
      d.setTwin { d.twin with cfgCopies := d.twin.cfgCopies + 1, role := .joining, stage := .sync, joinAt := d.clk, bootAt := none, sync := none, shadow := none, asked := false,
                              lastDrone := none, claim := false, leaseSeen := d.cyc.k }
    else d

/-- The wait of R310, or the shorter one of R322 once a powered cell head has reported BOOT, ends without a drone. -/
def execJoinTimeout (t : Nat) (s : State) : Answer :=
  s.upd t true fun _ d =>
    let wait := ticksOfMs (d.pn P.dup_join_ms)
    let long := decide (d.twin.joinAt + wait ≤ d.clk) && d.twin.lastDrone.isNone
    let short := match d.twin.bootAt with
      | some b => decide (b + min wait (ticksOfMs 1000) ≤ d.clk) && (match d.twin.lastDrone with
        | some x => x.role != 1
        | none => true)
      | none => false
    if d.duplex && d.twin.role == .joining && !d.twin.strap && (long || short) then d.setTwin { d.twin with claim := true } else d

/-- S(c) is complete, and its replay: it is swapped in at the boundary at which the replay, two cycles for each cycle, is
current (R324, DESIGN CHOICE, log entry 62). -/
def execSnapshotComplete (t : Nat) (x : Carried) (s : State) : Answer :=
  s.upd t true fun _ d =>
    match d.twin.sync with
    | some y =>
      if d.twin.role == .standby && d.twin.stage == .sync && y.c == x.c && y.swapAt.isNone then
        d.setTwin { d.twin with shadow := some x, sync := some ⟨y.c, some (d.cyc.k + max 1 (d.cyc.k - y.c))⟩ }
      else d
    | none => d

/-- The replay is not current within dup.sync_window cycles (R325). -/
def execSyncWindowExpiry (t : Nat) (s : State) : Answer :=
  s.upd t true fun _ d =>
    match d.twin.sync with
    | some y =>
      if d.twin.role == .standby && decide (y.c + d.pn P.dup_sync_window ≤ d.cyc.k) then
        let fails := d.clk :: d.twin.syncFails.filter fun a => decide (d.clk < a + ticksOfS 10)
        let held := decide (3 ≤ fails.length)
        let d := (d.setTwin { d.twin with syncFails := fails, syncHeld := held, sync := none, shadow := none, asked := false,
                                          syncsFailed := d.twin.syncsFailed + 1 }).raise Ev.DUP_SYNC_FAIL
        if held then d else d.askSnapshot
      else d
    | none => d

/-- DUP_HANDOVER (R320). -/
def execDupHandover (t : Nat) (c : CmdRef) (s : State) : Answer :=
  s.upd t true fun _ d => d.startCmd c 0x00B0 fun d =>
    let peer : Bool := match d.twin.lastDrone with
      | some b => b.role == 2 && b.ready && b.tOk && b.hbOk
      | none => false
    if d.twin.role == .holder && peer && !d.twin.t.off && !d.twin.hb.off && d.twin.rel.isNone then
      (d.setTwin { d.twin with rel := some (d.cyc.k + 8, c) }, none)
    else (d, some (stRes Sc.STATE))

/-- DUP_RESYNC (R325). -/
def execDupResync (t : Nat) (c : CmdRef) (s : State) : Answer :=
  s.upd t true fun _ d => d.runCmd c 0x00B1 fun d =>
    if d.twin.role == .standby then
      let d := if d.twin.stage == .sync then d else d.raise Ev.DUP_SYNC_START
      ((d.setTwin { d.twin with stage := .sync, synced := false, syncHeld := false, syncFails := [], matchRun := 0, misRun := 0 }).askSnapshot,
        stRes Sc.DONE)
    else (d, stRes Sc.STATE)

end Sys2Proof.Machine
end

