-- ==== Sys2Proof/Machine/SysOps.lean ====
section
/-!
DEFINITION. Machine/SysOps.lean: journal commits (R460, R461, R471), fatal faults and the cast (R468, R469), the security
alarm (R455, R456), firmware images (R446, R451), device resets (R499) and the boot ROM (R442 to R445).
-/
namespace Sys2Proof.Machine

open Sys2Proof

/-! ## Journal (R460 to R462, R471) -/

/-- The circular area: the memory less its last 64 KB. -/
def Log.area (l : Log) : Nat := l.jsize - 65536

/-- Bytes written on in the circular area. -/
def Log.put (l : Log) : List Byte → Log
  | [] => l
  | b :: bs => Log.put { l with jmem := memWrite l.jmem l.jpos b, jpos := (l.jpos + 1) % max 1 l.area } bs

/-- The last tags of the queue pairs, as a commit writes them (DESIGN CHOICE, log entry 63). -/
def Dev.tagBytes (d : Dev) : List Byte := (List.range 8).flatMap fun n => bytesLE 2 (d.host.tags.get 0 n)

/-- A commit of the first `n` uncommitted entries ends: the entries, the last tags of the queue pairs and the commit record,
whose CRC-32 covers both and the record's own numbers (R460). -/
def Dev.commit (d : Dev) (n : Nat) (final : Bool) : Dev :=
  let l := d.log
  let es := l.buffer.take n
  let seq := l.commitSeq + 1
  let c : Commit := { seq := seq, count := es.length, addr := l.jpos, tags := d.host.tags, final := final }
  let first := (es.head?.map fun e => e.seq.toNat).getD l.nextSeq.toNat
  let body := es.flatMap Entry.bytes ++ d.tagBytes
  let crc := crc32 (byteBits (body ++ bytesLE 4 seq ++ bytesLE 4 first ++ bytesLE 4 es.length ++ d.tagBytes))
  let l := l.put (body ++ bytesLE 64 (Config.commitRecord seq first es.length d.tagBytes crc).toNat)
  { d with log := { l with buffer := l.buffer.drop n, commits := c :: l.commits, commitSeq := seq, works := true, lastCommit := d.clk,
                           stateSeq := if final then some seq else l.stateSeq } }

/-- Regular commits of all of the first `n` uncommitted entries, at most 256 at a time. -/
def Dev.commitAll (d : Dev) (n : Nat) : Dev :=
  (List.range ((n + 255) / 256)).foldl (fun (d : Dev) i => d.commit (min 256 (n - 256 * i)) false) d

/-- The final commit: an entry beyond the last 256 is of a regular commit in progress at the assertion, which completes
first (R471). -/
def Dev.finalCommit (d : Dev) (n : Nat) : Dev :=
  let first := 256 * ((n - 1) / 256)
  (d.commitAll first).commit (n - first) true

/-- A journal write fails, or the memory does not answer (R461). -/
def Dev.journalFails (d : Dev) : Dev := ({ d with log := { d.log with works := false } }).raise Ev.SYS_JOURNAL_FAIL

/-- A byte of the journal memory (R461, R462): the circular area, the state block of the last final commit at the start of
the last 64 KB, the cast summary in its last 4 KB (DESIGN CHOICE, log entry 63). -/
def Log.byte (l : Log) (a : Nat) : Byte :=
  if a < l.area then memRead l.jmem a
  else if l.jsize - 4096 ≤ a then l.summary.getD (a - (l.jsize - 4096)) 0
  else match l.stateSeq with
    | some n => if a - l.area < 57280 then Config.stateByte n (a - l.area) else 0
    | none => 0

/-! ## Fatal faults and the cast (R468, R469) -/

/-- The coded twin state: 0 SOLO, 1 HOLDER, 2 STANDBY. -/
def Dev.twinCode (d : Dev) : Nat :=
  match d.twin.role with
  | .solo => 0
  | .holder => 1
  | _ => 2

/-- Bytes of a cast, its header included. -/
def castLen (no : Nat) : Nat := min (2 ^ 24) (256 + (Config.castBody no).toNat)

/-- The cast header as of now (Table 14-12). -/
def Dev.castHeader (d : Dev) (cause arg : Nat) : List Byte :=
  let no := d.flt.castNo
  bytesLE 4 0x54534143 ++ bytesLE 2 1 ++ bytesLE 1 cause ++ bytesLE 1 0
    ++ bytesLE 4 (if cause = 4 then d.host.hostTag.toNat else arg) ++ bytesLE 4 d.boot.version.toNat
    ++ bytesLE 8 d.tbc ++ bytesLE 12 d.wallNow.toNat ++ bytesLE 6 (d.ctCycle d.ctNow)
    ++ bytesLE 2 (d.addr + 4096 * d.twinCode + 16384 * bit01 d.convLead + 32768 * bit01 d.tim.isRoot)
    ++ bytesLE 4 d.twin.epoch ++ bytesLE 4 (castLen no) ++ bytesLE 2 8 ++ bytesLE 10 0
    ++ (List.range 48).map (fun i => Config.castByte no (0x40 + i)) ++ bytesLE 144 0

/-- A fatal fault (R468): frames, key blocks, drones and lease renewal stop; a solo device hands its ports to the fallback
generator; the cast begins. In REST there is no cast, only the summary (Table 15-6). -/
def Dev.fatal (d : Dev) (cause arg : Nat) : Dev :=
  if d.flt.stopped then { d with flt := { d.flt with silent := d.flt.silent || cause == 1 } }
  else
    let times := d.clk :: d.flt.times.filter fun x => decide (d.clk < x + ticksOfS 600)
    let d := { d with flt := { d.flt with cause := cause, arg := arg, times := times, stopped := true, silent := cause == 1 || cause == 5,
                                          castNo := d.flt.castNo + 1 },
                      twin := { d.twin with hbTx := false } }
    let head := d.castHeader cause arg
    let rest := d.mode.power == .rest
    let last := fun (d : Dev) => (d.log.ring.drop (d.log.ring.length - 64)).flatMap Entry.bytes
    let d := { d with flt := { d.flt with castHead := if rest then none else some head, castHurt := false } }
    let d := d.raise Ev.SYS_FATAL cause
    let d := if rest then { d with log := { d.log with summary := head ++ last d }, boot := { d.boot with halted := true } } else d
    if d.twin.role == .solo then
      ({ d with cyc := { d.cyc with fallback := some ⟨true, d.twin.epoch, d.cyc.k + d.depth⟩ } }).blockCause 8
    else d

/-- The header with its damaged bit. -/
def Cast.bytesAt (c : Cast) (off n : Nat) : List Byte :=
  (List.range n).map fun i =>
    let a := off + i
    if a = 7 then BitVec.ofNat 8 (bit01 c.damaged) else if a < 256 then c.head.getD a 0 else Config.castByte c.no a

/-- The cast has been copied: into slot 0 when it is empty, else into slot 1; under cause 0x05, or with PD8 out of service,
only the summary is written (R469, R491). -/
def Dev.castDone (d : Dev) (head : List Byte) : Dev :=
  let hurt := d.flt.castHurt
  let d := { d with flt := { d.flt with castHead := none, castHurt := false },
                    log := { d.log with summary := head ++ ((d.log.ring.drop (d.log.ring.length - 64)).flatMap Entry.bytes) } }
  if d.flt.cause == 5 || (d.mode.doms.get {} 8).faulty then d
  else
    let c : Cast := { no := d.flt.castNo, cause := d.flt.cause, head := head, damaged := hurt }
    if d.flt.cast0.isNone then ({ d with flt := { d.flt with cast0 := some c } }).raise Ev.SYS_CAST_WRITTEN 0
    else ({ d with flt := { d.flt with cast1 := some c } }).raise Ev.SYS_CAST_WRITTEN 1

/-! ## Security alarm (R455 to R457) -/

/-- The level that a raise has: with sec.tamper_erase OFF, 2 in place of 3. -/
def Dev.alarmLevel (d : Dev) (level : Nat) : Nat := if level = 3 ∧ !d.sec.tamperErase then 2 else level

/-- A source raises the alarm level. From level 2 on, the debug window and JTAG are closed (Table 14-7). -/
def Dev.raiseAlarm (d : Dev) (row level : Nat) : Dev :=
  let lv := d.alarmLevel level
  let s := d.sec
  let d := { d with sec := { s with alarm := max s.alarm lv, raised := s.raised ||| 2 ^ row,
                                    window := s.window && decide (lv < 2), jtag := s.jtag && decide (lv < 2),
                                    log := ((row, lv, d.clk) :: s.log).take 16 } }
  let d := d.raise Ev.SEC_ALARM (row + 16 * lv)
  if lv = 3 then d else d.wakeBy .alarm

/-- The keys are erased and the device is KILLED (R456). -/
def Otp.killed (o : Otp) : Otp :=
  { o with rootSecret := BitVec.allOnes 256, fwKey := BitVec.allOnes 256, erasing := false, erased := true, lifecycle := 3 }

/-- A raise with what level 3 brings: the fatal path with cause 0x06, then key erasure. -/
def State.alarm (s : State) (row level : Nat) : State :=
  let lv := s.dev.alarmLevel level
  let d := s.dev.raiseAlarm row level
  if lv = 3 then { s with dev := d.fatal 6 row, otp := s.otp.killed } else { s with dev := d }

/-- A list of instants with one more, those older than `span` left out. -/
def within (now span : Nat) (l : List Nat) : List Nat := now :: l.filter fun x => decide (now < x + span)

/-- A failed image check counts as a signature failure: 16 within 24 h raise level 1 (R446, Table 14-6). -/
def State.sigFailed (s : State) : State :=
  let d := s.dev
  let l := within d.clk (ticksOfS 86400) d.sec.sigFails
  let s := { s with dev := { d with sec := { d.sec with sigFails := l, sigTotal := d.sec.sigTotal + 1 } } }
  if 16 ≤ l.length then s.alarm 6 1 else s

/-- A wrong unlock answer: 3 within 1 h raise level 1, 10 within 24 h level 2. -/
def State.unlockFailed (s : State) : State :=
  let d := s.dev
  let l := within d.clk (ticksOfS 86400) d.sec.unlockFails
  let s := { s with dev := { d with sec := { d.sec with unlockFails := l, unlockTotal := d.sec.unlockTotal + 1 } }.raise Ev.SEC_UNLOCK_FAIL }
  if 10 ≤ l.length then s.alarm 7 2
  else if 3 ≤ (l.filter fun x => decide (d.clk < x + ticksOfS 3600)).length then s.alarm 7 1
  else s

/-! ## Firmware images (R446, R451, Table 14-3) -/

/-- The field of `n` bytes at offset `o` of an image. -/
def Image.field (m : Image) (o n : Nat) : Nat := natLE ((m.drop o).take n)
/-- A big-endian field, as signatures and digests are stored. -/
def Image.fieldBE (m : Image) (o n : Nat) : Nat := natLE ((m.drop o).take n).reverse

/-- The manifest digest: SHA-384 of bytes 0x000 to 0x62F. -/
def Image.manifest (m : Image) : BitVec 384 := Config.sha384 (m.take 0x630)

/-- The bytes of section `s` as stored. -/
def Image.section (m : Image) (s : Nat) : List Byte :=
  (m.drop (m.field (0x34 + 0x60 * s) 4)).take (m.field (0x38 + 0x60 * s) 4)

/-- The IV of section `s`: the IV base with `s` added to its last byte (Table 14-3). -/
def Image.iv (m : Image) (s : Nat) : BitVec 96 :=
  let x := m.fieldBE 0x20 12
  BitVec.ofNat 96 (x / 256 * 256 + (x + s) % 256)

/-- A section's digest and, when it is encrypted, its tag. -/
def Image.sectionOk (o : Otp) (m : Image) (s : Nat) : Bool :=
  let b := m.section s
  (Config.sha384 b).toNat == m.fieldBE (0x50 + 0x60 * s) 48
    && (!bitN (m.field (0x31 + 0x60 * s) 1) 0
      || Config.gcmVerify o.fwKey (m.iv s) (BitVec.ofNat 128 (m.fieldBE (0x40 + 0x60 * s) 16)) b)

/-- The owner key section of an image of type OWNER. -/
def Image.ownerKey (m : Image) : Option (List Byte) :=
  ((List.range (m.field 7 1)).find? fun s => m.field (0x30 + 0x60 * s) 1 == 5).map m.section

def Image.isOwner (m : Image) : Bool := m.field 6 1 == 2

/-- The current owner slot: the highest programmed one that is not revoked (R451). -/
def Otp.ownerSlot (o : Otp) : Option Nat :=
  ([3, 2, 1, 0] : List Nat).find? fun i => (o.owner.find i).isSome && !bitN o.ownerRevoked i

/-- The status of an image under R446: none when every check holds. -/
def imageCheck (o : Otp) (m : Image) : Option Nat :=
  let dg := m.manifest
  let n := m.field 7 1
  let sigO := BitVec.ofNat 768 (m.fieldBE 0x690 96)
  let pub := (m.drop 0x6F0).take 97
  let ownerOk : Bool :=
    if o.lifecycle = 2 then
      match o.ownerSlot with
      | some i => (Config.sha384 pub == o.owner.get 0 i) && Config.ecdsaVerify pub dg sigO
      | none => false
    else true
  let newOwnerOk : Bool :=
    if m.isOwner then match m.ownerKey with
      | some k => o.lifecycle == 2 || Config.ecdsaVerify k dg sigO
      | none => false
    else true
  if m.field 0 4 != 0x48574754 || m.field 4 2 != 1 || (m.field 6 1 != 1 && m.field 6 1 != 2) || n < 1 || 16 < n
      || (m.field 0xE 1 != 0 && m.field 0xE 1 != 0x21)
      || bitN o.keyRevoked (m.field 0x18 1 % 4)
      || !Config.ecdsaVerify [BitVec.ofNat 8 (m.field 0x18 1 % 4)] dg (BitVec.ofNat 768 (m.fieldBE 0x630 96))
      || !ownerOk || !newOwnerOk || !((List.range n).all (Image.sectionOk o m)) then some Sc.SIG_INVALID
  else if m.field 0xC 2 < o.rollback then some Sc.ROLLBACK
  else none

/-! ## Device resets (R499, Table 16-2) -/

/-- A domain after a device reset: its supply state stays; what R491 ends by a restart ends, which is not so for PD1. -/
def Domain.restarted (x : Domain) (pd1 : Bool) : Domain :=
  { st := x.st, clamps := x.clamps && pd1, faulty := x.faulty && pd1, since := x.since }

/-- What a device reset leaves of everything but the safety unit, the OTP and the boot flash. `warm` keeps the TBC running
and the content of DRAM: the event log, the records and the staged image. -/
def Dev.reset (d : Dev) (warm : Bool) : Dev :=
  { clk := d.clk, openIx := d.openIx, out := d.out
    log := { ring := if warm then d.log.ring else [], nextSeq := d.log.nextSeq, buffer := d.log.buffer, jmem := d.log.jmem,
             jsize := d.log.jsize, jpos := d.log.jpos, commits := d.log.commits, commitSeq := d.log.commitSeq, works := d.log.works,
             summary := d.log.summary, stateSeq := d.log.stateSeq, lastCommit := d.log.lastCommit }
    boot := { vin := d.boot.vin, ioRails := d.boot.ioRails, resetL := d.boot.resetL, count := d.boot.count }
    flt := { times := d.flt.times, castNo := d.flt.castNo, cast0 := d.flt.cast0, cast1 := d.flt.cast1, mapped := d.flt.mapped,
             dramPages := d.flt.dramPages }
    sec := { alarm := d.sec.alarm, present := d.sec.present, challenges := d.sec.challenges, tamperErase := d.sec.tamperErase }
    par := { copy0 := d.par.copy0, copy1 := d.par.copy1, current := d.par.current, retCells := d.par.retCells,
             retPorts := d.par.retPorts, retReeds := d.par.retReeds, retLanes := d.par.retLanes, dlyRef := d.par.dlyRef }
    host := { scratch := d.host.scratch }
    sar := { seq := d.sar.seq.map fun (x : Nat × SarSeq) => (x.1, { disabled := x.2.disabled, halted := x.2.disabled, bucket := x.2.bucket }) }
    tim := if warm then { tbc0 := d.tim.tbc0, running := d.tim.running } else {}
    mode := { doms := d.mode.doms.map fun (x : Nat × Domain) => (x.1, x.2.restarted (x.1 == 1)) }
    acq := if warm then { records := d.acq.records, nextId := d.acq.nextId, pool := d.acq.pool, used := d.acq.records.flatMap (·.segs) }
      else {} }

/-- A device reset: the firmware state ends, the staged image stays on a WARM reset (DEDUCED, log entry 64). -/
def State.deviceReset (s : State) (warm : Bool) : State :=
  { s with dev := s.dev.reset warm
           flash := { s.flash with staged := if warm then s.flash.staged else [], verified := none, ownerImage := false } }

/-! ## Boot ROM (R442 to R445, R456, R525, Table 14-2) -/

/-- The bits of eight strap samples agree, and their value. -/
def strapValue (l : List Nat) : Option Nat :=
  match l with
  | x :: r => if r.all (fun y => y % 128 == x % 128) then some (x % 128) else none
  | [] => none

/-- The ROM halts with the block requests set and EV_SYS_BOOT_FAIL on the UART (Table 14-1). -/
def Dev.romHalt (d : Dev) : Dev := ({ d with boot := { d.boot with halted := true, failed := true } }).emit (.uart Ev.SYS_BOOT_FAIL)

/-- The committed configuration is loaded, and a bad copy repaired from the good one (R445, R463). -/
def Dev.loadConfig (d : Dev) : Dev :=
  let p := d.par
  let use1 := p.copy1.good && (!p.copy0.good || decide (p.copy0.gen < p.copy1.gen))
  let cur := if use1 then p.copy1 else p.copy0
  let two := p.copy0.good && p.copy1.good
  let one := p.copy0.good || p.copy1.good
  let vals := if one then cur.vals else []
  let d := { d with par := { p with active := vals, waiting := [], pending := [], loaded := true, current := bit01 use1,
                                    copy0 := if one && !p.copy0.good then cur else p.copy0,
                                    copy1 := if one && !p.copy1.good then cur else p.copy1 },
                    boot := { d.boot with cfgBad := !one } }
  if two then d else d.raise Ev.SYS_CFG_COPY_BAD (if p.copy0.good then 1 else 0)

/-- The verified image runs: configuration, DRAM, journal (Table 14-2). -/
def Dev.startImage (d : Dev) (m : Image) (b : BootInputs) : Dev :=
  let d := { d with boot := { d.boot with hasImage := true, version := BitVec.ofNat 32 (m.field 8 4), pairMinor := m.field 0xF 1,
                                          sv := m.field 0xC 2, manifest := m.manifest },
                    flt := { d.flt with dramPresent := b.dramTrained } }
  let d := d.loadConfig
  let d := { d with log := { d.log with works := b.journalWorks },
                    host := { d.host with lastTag := (d.log.commits.head?.map (·.tags)).getD [],
                                          lastExact := (d.log.commits.head?.map (·.final)).getD false } }
  let d := if b.journalTorn then d.raise Ev.SYS_JOURNAL_TORN else d
  if b.dramTrained then d else d.fatal 5 0

/-- The ROM takes the image from the boot source of the straps. -/
def Dev.loadImage (d : Dev) (o : Otp) (f : Flash) (b : BootInputs) : Dev :=
  let ok := fun (i : Nat) => if imageCheck o (f.slots.get [] i) = none then some (f.slots.get [] i) else none
  match d.boot.source with
  | 0 =>
    match ok f.active with
    | some m => ({ d with boot := { d.boot with slot := f.active } }).startImage m b
    | none => match ok (1 - f.active) with
      | some m => ({ d with boot := { d.boot with slot := 1 - f.active, fallback := true } }).startImage m b
      | none => if b.pcieTrains then { d with boot := { d.boot with pcieBoot := true } } else d.romHalt
  | 1 => { d with boot := { d.boot with pcieBoot := true } }
  | 2 => if imageCheck o b.fabricImage = none then d.startImage b.fabricImage b else d
  | _ => d.romHalt

/-- The statuses of the images that the ROM refuses at boot, in the order in which it tries them (R444, R446). -/
def bootRefused (o : Otp) (f : Flash) (source : Nat) (b : BootInputs) : List Nat :=
  match source with
  | 0 =>
    match imageCheck o (f.slots.get [] f.active), imageCheck o (f.slots.get [] (1 - f.active)) with
    | none, _ => []
    | some x, none => [x]
    | some x, some y => [x, y]
  | 2 => (imageCheck o b.fabricImage).toList
  | _ => []

/-- A failed image check: its event, and one more signature failure (R446; at boot as in FW_VERIFY: DEDUCED, log entry 138). -/
def State.imageRefused (s : State) (st : Nat) : State :=
  ({ s with dev := s.dev.raise (if st = Sc.ROLLBACK then Ev.SEC_ROLLBACK else Ev.SEC_SIG_FAIL) }).sigFailed

/-- Boot from the moment the device leaves reset (R442). -/
def State.bootRom (s : State) (b : BootInputs) : State :=
  if !s.dev.boot.vin || s.dev.boot.resetL || !s.dev.boot.ioRails || !b.refclk || s.dev.boot.started then s
  else
    let o := if s.otp.erasing then s.otp.killed else s.otp
    let d := { s.dev with boot := { s.dev.boot with started := true, began := s.dev.clk, count := s.dev.boot.count + 1 } }
    let s := { s with otp := o, dev := d }
    if !b.readsAgree then
      let s := s.alarm 3 2
      { s with dev := { s.dev with boot := { s.dev.boot with halted := true } } }
    else if o.lifecycle = 3 then { s with dev := { d with boot := { d.boot with halted := true } } }
    else match strapValue b.straps with
      | none => { s with dev := d.romHalt }
      | some v =>
        let d := { d with boot := { d.boot with twinSel := bitN v 0, segId := fieldN v 1 4, source := fieldN v 5 2 } }
        (bootRefused o s.flash d.boot.source b).foldl State.imageRefused { s with dev := d.loadImage o s.flash b }

/-- A restart by the device itself: the reset, then the ROM (R447, R468, R499). -/
def State.restart (s : State) (warm : Bool) (b : BootInputs) : State :=
  let s := s.deviceReset warm
  ({ s with dev := { s.dev with boot := { s.dev.boot with ioRails := b.ioRails } } }).bootRom b

/-- The restart of FW_ACTIVATE. With BOOT_SEL naming PCIe the image that the host has activated is the one that the ROM
runs: the new firmware is operational within 2.0 s of the completion (R447, DEDUCED, log entry 138). -/
def State.runActivated (s : State) (slot : Nat) (b : BootInputs) : State :=
  let s := s.restart false b
  if s.dev.boot.pcieBoot && s.dev.boot.source == 1 && (imageCheck s.otp (s.flash.slots.get [] slot)).isNone then
    { s with dev := { s.dev with boot := { s.dev.boot with pcieBoot := false, slot := slot } }.startImage (s.flash.slots.get [] slot) b }
  else s

end Sys2Proof.Machine
end

