-- ==== Sys2Proof/Machine/Boot.lean ====
section
/-!
DEFINITION. Machine/Boot.lean: power, RESET_L, boot, PWRFAIL_L and the journal's commits (R442 to R450, R460, R471, R489,
R499, R527).
-/
namespace Sys2Proof.Machine

open Sys2Proof

/-! ## Supply (R489, R499) -/

/-- The order in which the PMU powers the domains up. -/
def powerOrder : List Nat := [0, 1, 2, 7, 9, 8, 5, 6, 10, 11, 3, 4]

/-- A domain powered up: its clamps release once it is within ±3 % for 2 µs. -/
def Dev.powerDomain (d : Dev) (n : Nat) : Dev :=
  let x := d.mode.doms.get {} n
  if x.st = .on then d
  else { d with mode := { d.mode with doms := d.mode.doms.set n { x with st := .on, clamps := false, powerUps := x.powerUps + 1, since := d.clk } } }

/-- A domain isolated and switched off. -/
def Dev.dropDomain (d : Dev) (n : Nat) : Dev :=
  let x := d.mode.doms.get {} n
  { d with mode := { d.mode with doms := d.mode.doms.set n { x with st := .off, clamps := true, since := d.clk } } }

/-- VIN_CORE enters its range: the domains come up in order, and with the first power the block requests of both safety
channels are set (R420, R489). -/
def execPowerUp (t : Nat) (s : State) : Answer :=
  s.updAll t true fun s =>
    if s.dev.boot.vin then s
    else
      let d := powerOrder.foldl Dev.powerDomain { s.dev with boot := { s.dev.boot with vin := true } }
      { s with safe := if s.safe.powered then s.safe else { s.safe with powered := true, upAt := d.clk, reqAt := some d.clk }, dev := d }

/-- VIN_CORE below 0.90 V: every domain but PD0 and PD1 is isolated and switched off in the reverse order, and what they
held is lost; DRAM and its casts with it (R469, R489). -/
def execVinCoreUndervoltage (t : Nat) (s : State) : Answer :=
  s.updAll t true fun s =>
    if !s.dev.boot.vin then s
    else
      let n := s.dev.mode.uvEvents
      let s := s.deviceReset false
      let d := (powerOrder.drop 2).reverse.foldl Dev.dropDomain s.dev
      { s with dev := { d with boot := { d.boot with vin := false }, sar := {}, flt := { d.flt with cast0 := none, cast1 := none },
                               mode := { d.mode with uvEvents := n + 1 } } }

/-- VIN_CORE below 0.80 V: PD0 and PD1 stop too; both safety channels with their latched states, the retention SRAM and
the boot count are lost. OTP, boot flash and journal memory stay, and the alarm level with the journal (R455, R499). -/
def execVinCoreLoss (t : Nat) (s : State) : Answer :=
  s.updAll t true fun s =>
    let s := s.deviceReset false
    let d := s.dev
    { s with safe := {}
             dev := { d with boot := {}, sar := {}, flt := { d.flt with cast0 := none, cast1 := none, times := [] }, mode := {},
                             log := { d.log with buffer := [] }, host := {} } }

/-! ## RESET_L (R442, R499, R527) -/

/-- RESET_L acts after 1 µs. While a final commit is being written, or PWRFAIL_L was asserted within 1 µs of it, the reset
waits for the commit record (R527). -/
def execResetLAssert (t : Nat) (withPwrfail : Bool) (s : State) : Answer :=
  s.updAll t true fun s =>
    if !s.dev.boot.vin then s
    else
      let s := { s with dev := { s.dev with boot := { s.dev.boot with resetL := true } } }
      if s.dev.log.running || (withPwrfail && !s.dev.boot.pwrfail) then
        { s with dev := { s.dev with boot := { s.dev.boot with resetWaits := true, releaseWaits := none } } }
      else s.deviceReset false

/-- RESET_L is released: boot starts when VIN_CORE and the I/O rails are in range (R442, R527). -/
def execResetLRelease (t : Nat) (b : BootInputs) (s : State) : Answer :=
  s.updAll t (b.straps.length == 8) fun s =>
    let s := { s with dev := { s.dev with boot := { s.dev.boot with resetL := false, ioRails := b.ioRails } } }
    if s.dev.boot.resetWaits then { s with dev := { s.dev with boot := { s.dev.boot with releaseWaits := some b } } }
    else s.bootRom b

/-- The last rail comes into range with RESET_L released: boot starts (R527). -/
def execIoRailsInRange (t : Nat) (b : BootInputs) (s : State) : Answer :=
  s.updAll t (b.straps.length == 8) fun s =>
    ({ s with dev := { s.dev with boot := { s.dev.boot with ioRails := true } } }).bootRom b

/-! ## Operational (R322, R407, R443, R444, R449) -/

/-- The twin state, the cell ports and the lanes as the device becomes operational. -/
def Dev.startPorts (d : Dev) : Dev :=
  let d := d.setTwin { d.twin with role := if d.duplex then .joining else .solo, stage := .sync, joinAt := d.clk }
  let d := (List.range 48).foldl Dev.startPort d
  (List.range 4).foldl Dev.startLink ((List.range 8).foldl Dev.startLane d)

/-- The reference and the gains in use are those that boot loaded: no change of either has happened (R177, R178). -/
def Dev.startSar (d : Dev) : Dev :=
  { d with sar := { d.sar with ext := d.pn P.sar_ref_src, extNext := d.pn P.sar_ref_src, refMv := d.pn P.sar_refin_mv
                               ch := (List.range 16).foldl (fun (c : Tab SarChan) n => c.set n { c.get {} n with gain := d.pni P.sar_gain n }) d.sar.ch } }

/-- The device becomes operational: what takes effect at boot, bring-up, and the boot events (R407, R443, R444). -/
def Dev.becomeOperational (d : Dev) : Dev :=
  let d := { d with boot := { d.boot with operational := true }
                    par := { d.par with lock := d.pv P.sys_lock_at_boot == 1 }
                    sec := { d.sec with tamperErase := d.pv P.sec_tamper_erase == 1 }
                    mode := { d.mode with fnEnable := d.pn P.mode_fn_enable }
                    ctl := { d.ctl with host := !bitN (d.pn P.mode_fn_enable) 4, modes := d.ctlModes } }
  let d := d.startPorts.startSar
  let d := d.raiseB Ev.SYS_BOOT ([BitVec.ofNat 8 d.boot.source, BitVec.ofNat 8 d.boot.slot] ++ bytesLE 4 d.boot.count.toNat)
  if d.boot.fallback then d.raise Ev.SYS_BOOT_FALLBACK d.boot.slot else d

/-- The device may become operational: an image runs, and nothing has ended the boot. -/
def Dev.mayOperate (d : Dev) : Bool :=
  d.boot.started && d.boot.hasImage && !d.boot.operational && !d.boot.halted && !d.boot.failed && !d.flt.stopped

/-- The anti-rollback counter advances with sec.rollback_auto ON, or when FW_ACTIVATE activated the image (R449). -/
def State.advances (s : State) : Bool :=
  decide (s.otp.rollback < s.dev.boot.sv)
    && (s.dev.pv P.sec_rollback_auto == 1 || (s.flash.byActivate && s.dev.boot.slot == s.flash.active))

/-- Boot completes (R443, R449). -/
def execBootOperational (t : Nat) (s : State) : Answer :=
  s.updAll t true fun s =>
    if s.dev.mayOperate then
      let s := { s with dev := s.dev.becomeOperational }
      if s.advances then
        { s with otp := { s.otp with rollback := min 256 s.dev.boot.sv }, dev := s.dev.raise Ev.SEC_ROLLBACK_ADV (min 256 s.dev.boot.sv) }
      else s
    else s

/-- Not operational 2.0 s after the release of RESET_L (R443). -/
def execBootTimeout (t : Nat) (s : State) : Answer :=
  s.upd t true fun _ d =>
    if d.boot.started && !d.boot.operational && !d.boot.failed && decide (d.boot.began + ticksOfMs 2000 ≤ d.clk) then
      ({ d with boot := { d.boot with failed := true } }).raise Ev.SYS_BOOT_FAIL
    else d

/-! ## PWRFAIL_L (R471) -/

/-- PWRFAIL_L is accepted: no further fetch and no completion, EV_SYS_PWRFAIL, and the final commit starts with the entries
that are uncommitted now. -/
def execPwrfailAssert (t : Nat) (s : State) : Answer :=
  s.upd t true fun _ d =>
    if d.boot.pwrfail || !d.boot.vin || !d.boot.started then d
    else
      let d := ({ d with boot := { d.boot with pwrfail := true, pwrfails := d.boot.pwrfails + 1, finalDone := false } }).raise Ev.SYS_PWRFAIL
      { d with log := { d.log with running := true, finalN := d.log.buffer.length } }

/-- The final commit has been written; a reset that waited for it takes place (R471, R527). -/
def execFinalCommitDone (t : Nat) (works : Bool) (s : State) : Answer :=
  s.updAll t true fun s =>
    let d := s.dev
    if !d.log.running then s
    else
      let d := if works then d.finalCommit d.log.finalN else d.journalFails
      let d := { d with log := { d.log with running := false }, boot := { d.boot with finalDone := works } }
      let s := { s with dev := d }
      if d.boot.resetWaits then
        let s := s.deviceReset false
        match d.boot.releaseWaits with
        | some b => s.bootRom b
        | none => s
      else s

/-- PWRFAIL_L has stayed released for 10 ms without an undervoltage: fetching resumes. -/
def execPwrfailRelease (t : Nat) (s : State) : Answer :=
  s.upd t true fun _ d =>
    if d.boot.pwrfail then ({ d with boot := { d.boot with pwrfail := false } }).raise Ev.SYS_PWRFAIL_CLEARED else d

/-! ## Regular commits (R460, R461) -/

/-- A regular commit, every sys.journal_ms or at 256 uncommitted entries. In REST and after PWRFAIL_L there is none. -/
def execJournalCommit (t : Nat) (works : Bool) (s : State) : Answer :=
  s.upd t true fun _ d =>
    let due := decide (d.log.lastCommit + ticksOfMs (d.pn P.sys_journal_ms) ≤ d.clk) || decide (256 ≤ d.log.buffer.length)
    if !d.boot.operational || d.boot.pwrfail || d.mode.power == .rest || !due then d
    else if works then d.commit 256 false
    else d.journalFails

/-- JOURNAL_READ returns bytes of the journal memory (R462). -/
def execJournalRead (t : Nat) (c : CmdRef) (offset length : Nat) (s : State) : Answer :=
  s.upd t true fun _ d => d.runCmd c 0x0004 fun d =>
    if d.log.jsize < offset + length then (d, stRes Sc.RANGE)
    else (d, ⟨Sc.DONE, [], (List.range length).map fun i => d.log.byte (offset + i)⟩)

/-- EVENT_READ returns entries of the event log from a sequence number on (R460). -/
def execEventRead (t : Nat) (c : CmdRef) (first count : Nat) (s : State) : Answer :=
  s.upd t true fun _ d => d.runCmd c 0x0003 fun d =>
    if count = 0 ∨ 1024 < count ∨ !(d.log.ring.any fun e => e.seq.toNat == first) then (d, stRes Sc.RANGE)
    else (d, ⟨Sc.DONE, [], ((d.log.ring.dropWhile fun e => e.seq.toNat != first).take count).flatMap Entry.bytes⟩)

/-! ## SYS_RESET (R499) -/

/-- SYS_RESET WARM or FULL: the completion is written before the reset. -/
def execSysReset (t : Nat) (c : CmdRef) (full : Bool) (b : BootInputs) (s : State) : Answer :=
  s.updAll t (b.straps.length == 8) fun s =>
    if fenceWaits c s.dev.host.inflight false then s
    else match s.dev.precheck c 0x0013 with
      | some st => { s with dev := s.dev.complete c 0x0013 (stRes st) }
      | none => ({ s with dev := s.dev.completeNow c (stRes Sc.DONE) }).restart (!full) b

end Sys2Proof.Machine
end

