-- ==== Sys2Proof/Machine/Commit.lean ====
section
/-!
DEFINITION. Machine/Commit.lean: PARAM_COMMIT (R406) and the rules that the manual applies at parameter commit.
-/
namespace Sys2Proof.Machine

open Sys2Proof

/-- A parameter element that offends: its ID and index. -/
abbrev Offender := Nat × Nat

/-- One element that offends when `bad` holds. -/
def offends (id : Nat) (bad : Bool) (i : Nat := 0) : List Offender := if bad then [(id, i)] else []

/-- The elements of an array that offend. -/
def offendAll (id n : Nat) (bad : Nat → Bool) : List Offender := ((List.range n).filter bad).map fun i => (id, i)

/-! ## The rules, over the set to be committed -/

/-- Ranges that the parameter tables state against another parameter. -/
def Dev.badRanges (d : Dev) : List Offender :=
  offends P.mod_band_max_mv (d.pv P.mod_band_max_mv < d.pv P.mod_band_min_mv)
    ++ offends P.mod_cap_retire_pct (d.pv P.mod_cap_warn_pct ≤ d.pv P.mod_cap_retire_pct)
    ++ offends P.mode_tj_trip_c (d.pv P.mode_tj_trip_c ≤ d.pv P.mode_tj_warn_c)
    ++ offendAll P.ctl_prof_max 6 (fun i => f32le (d.pfi P.ctl_prof_max i) (d.pfi P.ctl_prof_min i))
    ++ offendAll P.rec_u_thr_hi 16 (fun i => f32lt (d.pfi P.rec_u_thr_hi i) (d.pfi P.rec_u_thr_lo i))
    ++ offendAll P.rec_u_w2 16 (fun i => d.pvi P.rec_u_w2 i < d.pvi P.rec_u_w1 i)

/-- Another device of the own twin letter that this device knows holds segment `seg` of arm `a` (DEDUCED, log entry 115). -/
def Dev.segTaken (d : Dev) (a seg : Nat) : Bool :=
  [0, 1, 2, 3].any (fun p => (d.partner p).any fun x => x.arm == a && x.seg == seg && x.twinB == d.letterB && x.addr != d.addr)
    || d.fab.routes.any fun r => r.arm == a && r.seg == seg && r.twinB == d.letterB && r.dest != d.addr

/-- Port groups and arms (R20, R35, R43, R264). -/
def Dev.badArms (d : Dev) : List Offender :=
  let arm := fun n => d.pni P.mod_pg_arm n
  offendAll P.mod_pg_segidx 3 (fun n => (List.range n).any fun m => arm m == arm n && arm n != 0xFF
      && d.pni P.mod_pg_segidx m != d.pni P.mod_pg_segidx n)
    ++ offendAll P.mod_pg_segidx 3 (fun n => decide (arm n < 6) && d.segTaken (arm n) (d.pni P.mod_pg_segidx n))
    ++ offends P.mod_iarm_src (d.pv P.mod_iarm_src == 0xFF && d.arms.any d.leadsArm)
    ++ offendAll P.mode_arm_nseg 6 (fun a => decide (1 < d.arms.length) && d.arms.contains a && decide (3 < d.pni P.mode_arm_nseg a))

/-- Modulation and control timing (R27, R62, R73, R190, R252). -/
def Dev.badTiming (d : Dev) : List Offender :=
  let t := d.pn P.mod_t_mod_ns
  let need := 2800 + 5 * d.pn P.mod_fibre_max_m
  offends P.mod_t_mod_ns (t % 40 != 0)
    ++ offends P.mod_min_pulse_ns (t < 2 * d.pn P.mod_min_pulse_ns)
    ++ offends P.mod_depth (d.depth * t < need)
    ++ offends P.ctl_n_ctl (d.tCtlNs < 10000 || d.lawWindowBad false)
    ++ offends P.cyc_reed_reserve (d.goodReeds < d.rNeedWith false)

/-- Measurement chains: sets, rates, the RMD capture delay at 50 MHz, phase delays (R139, R143, R144, R151, R153). -/
def Dev.badChains (d : Dev) : List Offender :=
  let dbl := d.pv P.link_double_rate == 1
  let cell := fun (id : Nat) => dbl != (d.pn id == 3)
  let p7 := fun n => (d.pni P.meas_ref_preset n == 7) != (d.pvi P.meas_mclk_rate (n / 4) == 1)
  let refused := fun n => setRefused (preset (d.chainPreset n)) (d.coefSet (d.chainSlot n))
  let pairD := fun (c : Nat) => decide (1023 < d.phaseDelay c)
  let cellD := (List.range 96).any fun c => bitN (d.pn P.link_port_enable) (c % 48) && pairD c
  let late := fun (n : Nat) => d.pvi P.meas_mclk_rate (n / 4) == 1 && decide (11 < d.pni P.meas_rmd_dly_tk n)
  offends P.meas_cv_preset (cell P.meas_cv_preset) ++ offends P.meas_ct_preset (cell P.meas_ct_preset)
    ++ offends P.meas_cv_slot (refused 0) ++ offends P.meas_ct_slot (refused 48)
    ++ offends P.meas_cell_align cellD
    ++ offendAll P.meas_ref_preset 8 p7
    ++ offendAll P.meas_ref_slot 8 (fun n => refused (96 + n))
    ++ offendAll P.meas_ref_dph 8 (fun n => pairD (96 + n))
    ++ offendAll P.meas_rmd_dly_tk 8 late

/-- SAR sequencers (R174, R175, Table 05-2). -/
def Dev.badSar (d : Dev) : List Offender :=
  let off3 := (d.sar.seq.get {} 3).disabled
  let used := fun (n : Nat) => if n = 3 ∨ (n = 2 ∧ off3) then min 24 (d.pni P.sar_seq_len n) else d.pni P.sar_seq_len n
  let word := fun i => d.pni P.sar_seq_slot i
  let pass := fun n => passLen (((List.range (used n)).map fun j => (j, word (32 * n + j))) ++ (if n = (if off3 then 2 else 3) then monitorSlots else []))
  offendAll P.sar_seq_period_ns 4 (fun n => d.pvi P.sar_seq_mode n == 1 && decide (d.pni P.sar_seq_period_ns n < 8 * pass n))
    ++ offends P.sar_seq_len (24 < d.pni P.sar_seq_len 3) 3
    ++ offendAll P.sar_seq_slot 128 (fun i => decide (i % 32 < used (i / 32)) && !slotWordOk (word i))

/-- Profile channels (R214). -/
def Dev.badProfiles (d : Dev) : List Offender :=
  offendAll P.ctl_ss_rate 6 (fun c => f32lt (d.pfi P.ctl_prof_v c) (d.pfi P.ctl_ss_rate c))
    ++ offendAll P.ctl_prof_rebase 6 (fun c => f32le (d.pfi P.ctl_fe_emax c) (d.pfi P.ctl_prof_rebase c))

/-- Queues that the snapshot touches (R416, Table 12-16). -/
def Dev.badQueues (d : Dev) (pending : Tab Int) : List Offender :=
  pending.flatMap fun (x : Nat × Int) =>
    let id := x.1 / 65536
    let q := x.1 % 65536
    let hi := d.pni P.que_wm_hi q
    if id = P.que_cap_items then offends id (d.pni id q < Config.queueMin q true) q
    else if id = P.que_cap_gran then
      offends id (d.pni id q < Config.queueMin q false) q ++ offends P.que_wm_hi (d.pni id q < hi) q
    else if id = P.que_wm_hi then offends id (d.pni P.que_cap_gran q < hi) q ++ offends P.que_wm_lo (hi ≤ d.pni P.que_wm_lo q) q
    else if id = P.que_wm_lo then offends id (hi ≤ d.pni id q) q
    else []

/-- A function that another rule requires stays enabled: the control engine while the control source is AUTO, the SAR
sequencers for a TACHO speed (R482, DEDUCED, log entry 73). -/
def Dev.badFunctions (d : Dev) (was : Nat) : List Offender :=
  let now := d.pn P.mode_fn_enable
  let off := fun b => bitN was b && !bitN now b
  offends P.mode_fn_enable ((off 4 && d.convLead && !d.ctl.host)
    || (!bitN now 1 && d.convLead && d.pn P.ctl_app == 2 && d.pv P.ctl_spd_src == 1))

/-- Every rule that the manual applies at parameter commit, over the set to be committed. -/
def Dev.offenders (d : Dev) (pending : Tab Int) (fnWas : Nat) : List Offender :=
  d.badRanges ++ d.badArms ++ d.badTiming ++ d.badChains ++ d.badSar ++ d.badProfiles ++ d.badQueues pending ++ d.badFunctions fnWas

/-- The offender with the lowest ID and index. -/
def firstOffender : List Offender → Option Offender
  | [] => none
  | x :: r => match firstOffender r with
    | none => some x
    | some y => some (if x.1 < y.1 ∨ (x.1 = y.1 ∧ x.2 ≤ y.2) then x else y)

/-! ## The commit -/

def keyTakes (key : Nat) : Takes := ((paramDef? (key / 65536)).map (·.takes)).getD .cycle

/-- An element that may change in DE-ENERGISED only: its row says so, or it is bit 4 of mode.fn_enable. -/
def Dev.needsDeEnergised (d : Dev) (x : Nat × Int) : Bool :=
  keyTakes x.1 == .deEnergised || (x.1 == pkey P.mode_fn_enable 0 && bitN x.2.toNat 4 != bitN (d.pn P.mode_fn_enable) 4)

/-- The status and the offender of a commit that fails, in its checks' order: the lock, the state, the rules. -/
def Dev.commitFails (d : Dev) : Option (Nat × Offender) :=
  let p := d.par.pending
  let named := fun (l : List (Nat × Int)) => firstOffender (l.map fun x => (x.1 / 65536, x.1 % 65536))
  match named (p.filter fun x => d.par.lock && !lockExempt (x.1 / 65536)) with
  | some o => some (Sc.LOCKED, o)
  | none => match named (p.filter fun x => d.mode.conv != .deEnergised && d.needsDeEnergised x) with
    | some o => some (Sc.STATE, o)
    | none =>
      let cand : Dev := { d with par := { d.par with active := overlay d.par.withWaiting p } }
      (firstOffender (cand.offenders p (d.pn P.mode_fn_enable))).map fun o => (Sc.INVALID, o)

/-- The whole set that the commit stores: what is in force or waits, what an earlier commit left for the next boot, and the
snapshot. -/
def Dev.wholeSet (d : Dev) : Tab Int :=
  overlay (overlay d.par.withWaiting (d.par.committed.vals.filter fun (x : Nat × Int) => keyTakes x.1 == .boot)) d.par.pending

/-- Retired cells bring an arm below a minimum (block cause 12, DEDUCED, log entry 73). -/
def Dev.retiredBelow (d : Dev) : Bool :=
  d.arms.any fun a =>
    let st := d.armSt a
    decide (st.nUse < d.pn P.mod_n_min) && (List.range 48).any fun p => d.portArm p == a && bitN d.par.retCells p

/-- The snapshot is stored and takes effect as its rows state. A converter lead agrees the Next control cycle changes with
its twin (R229), and the command completes with them. -/
def Dev.commitSet (d : Dev) (c : CmdRef) : Dev × Option CmdResult :=
  let p := d.par.pending
  let isCtl := fun (x : Nat × Int) => keyTakes x.1 == .control && d.convLead
  let at_ := fun (k : Takes) => p.filter fun (x : Nat × Int) => keyTakes x.1 == k
  let wait := p.filter fun (x : Nat × Int) => !(keyTakes x.1 == .event || keyTakes x.1 == .boot) && !isCtl x
  let ctl := p.filter isCtl
  let par := d.par.store d.wholeSet
  let d := { d with par := { par with pending := [], waiting := par.waiting ++ wait, inForce := d.cyc.k + 1,
                                      active := overlay par.active (at_ .event) },
                    boot := { d.boot with cfgBad := false } }
  let d := d.sarStored p
  let d := if d.retiredBelow then d.blockCause 12 else d.clearCause 12
  if ctl.isEmpty then
    (d, some ⟨Sc.DONE, wordsBytes [d.par.committed.gen, d.par.inForce % 2 ^ 32, d.par.inForce / 2 ^ 32], []⟩)
  else (d.agreeCtl (.params ctl false) (some c), none)

/-- PARAM_COMMIT (R406). -/
def execParamCommit (t : Nat) (c : CmdRef) (s : State) : Answer :=
  s.upd t true fun _ d => d.startCmd c 0x0022 fun d =>
    if d.commitRuns then (d, some (stRes Sc.BUSY))
    else if d.par.pending = [] then (d, some (stRes Sc.DONE))
    else match d.commitFails with
      | some (st, o) => (d, some ⟨st, wordsBytes [o.1 + 65536 * o.2], []⟩)
      | none => d.commitSet c

end Sys2Proof.Machine
end

