-- ==== Sys2Proof/Machine/Control.lean ====
section
/-!
DEFINITION. Machine/Control.lean: the control engine's steps and commands (chapter 6).
-/
namespace Sys2Proof.Machine

open Sys2Proof

/-- A converter lead whose control work goes on: a segment fault, which ends its cell work, leaves it (R191, R248). -/
def Dev.leadWorks (d : Dev) : Bool := d.convLead && d.cyc.run && !d.flt.stopped

/-- t_kj + 2.0 µs: the inputs are snapshot, and the law tasks of control cycle j start (R190). With the engine disabled only a
missing host record is watched (R216). -/
def execLawSnapshot (t : Nat) (s : State) : Answer :=
  s.upd t true fun _ d =>
    if d.leadWorks && d.cyc.k % max 1 (d.pn P.ctl_n_ctl) == 0 then
      let d := d.actOnRequests d.cyc.k
      if bitN d.mode.fnEnable 4 then (d.snapshot d.cyc.k).place (.law 0) else (d.lossStep 0).1
    else d

/-- The part of the laws that law task `n` runs. -/
def Dev.lawPart (d : Dev) (r : LawRun) (n : Nat) : Dev × LawRun :=
  match n with
  | 0 =>
    let was := r.laws.obsValid
    let r := d.law0 r
    let d := if d.isDrive && was != r.laws.obsValid then d.raise Ev.CTL_HANDOVER else d
    (d.pllLock r.laws, r)
  | 1 => d.law1 r
  | 2 =>
    let (d, r) := d.law2 r
    (if r.outer then d.following r.laws else d, r)
  | 3 => (d.identStep r.k r.laws).law3 r
  | _ => d.law4 r

/-- A law task is complete, once in a control cycle; the next one is ready. -/
def Dev.lawDone (d : Dev) (n : Nat) : Dev :=
  let d := d.ran (.law n)
  if n < 4 then d.place (.law (n + 1)) else d

/-- A law task runs once the ones before it are complete (R189, R197; DESIGN CHOICE, log entry 50). -/
def execLawTask (t : Nat) (n : Nat) (s : State) : Answer :=
  s.upd t (n < 5) fun _ d =>
    match d.ctl.lawRun with
    | some r =>
      if d.leadWorks && r.done == n then
        let (d, r) := d.lawPart r n
        ({ d with ctl := { d.ctl with lawRun := some { r with done := n + 1 } } }.lawDone n)
      else d
    | none => d

/-- The laws of control cycle `kj` missed their deadline (R191, R247, R248). -/
def Dev.lawMissed (d : Dev) : Dev :=
  let m := d.ctl.misses + 1
  let d := { d with ctl := { d.ctl with misses := m, lawRun := none } }.raise Ev.CTL_OVERRUN
  let d := if m = 1 then { d with cyc := { d.cyc with ovrLaw := d.cyc.ovrLaw + 1 } } else d
  if m = 2 then d.segmentFault else d

/-- t_kj + T_ctl − 2.5 µs: the records for c0 = k_j + n_ctl leave, or continuations, or none (R190, R191, R215, R216). -/
def Dev.lawDeadline (d : Dev) : Dev :=
  let n := max 1 (d.pn P.ctl_n_ctl)
  let kj := d.cyc.k / n * n
  let c0 := kj + n
  let on := bitN d.mode.fnEnable 4
  let done : Option LawRun := match d.ctl.lawRun with
    | some r => if r.k = kj ∧ r.done = 5 then some r else none
    | none => none
  let gap := d.ctl.misses
  let d := match done with
    | some r => ({ d with ctl := { d.ctl with laws := r.laws, misses := 0, lawRun := none } }).recCtl kj r.laws
    | none => if on then d.lawMissed else d
  if d.ctl.host then
    let (d, rs) := (List.range 6).foldl (fun (acc : Dev × List RefRec) a =>
      let (d, r) := acc.1.hostArm n c0 a
      (d, acc.2 ++ r.toList)) (d, [])
    d.sendRecords c0 n rs
  else match done with
    | some r => d.sendRecords c0 n (if d.ctl.block then r.recs.map fun x => { x with cmd := 2 } else r.recs)
    | none =>
      if gap == 0 && on then
        let last := (List.range 6).filterMap d.ctl.lastRec.find
        d.sendRecords c0 n (last.map fun r => let y := continuation n r; if d.ctl.block then { y with cmd := 2 } else y)
      else d

def execLawSendDeadline (t : Nat) (s : State) : Answer :=
  s.upd t true fun _ d => if d.leadWorks then d.lawDeadline else d

/-- The hold of R221 reaches ctl.fb_hold_us. -/
def execFeedbackHoldExpiry (t : Nat) (s : State) : Answer :=
  s.upd t true fun _ d =>
    match d.ctl.holdN with
    | some n =>
      if d.holdLimit ≤ n + 1 && !bitN d.mode.causes 2 then (d.raise Ev.CTL_FB_BLOCK d.ctl.lost).blockCause 2 else d
    | none => d

/-- A following error has lasted ctl.fe_t_ms (R222). -/
def execFollowingError (t : Nat) (ch : Nat) (s : State) : Answer :=
  s.upd t (ch < 7) fun _ d =>
    match d.ctl.fe.find ch with
    | some t0 =>
      if ticksOfMs (d.pni P.ctl_fe_t_ms ch) ≤ d.clk - t0 && !bitN d.ctl.feUp ch then
        let d := { d with ctl := { d.ctl with feUp := d.ctl.feUp + 2 ^ ch } }.raise Ev.CTL_FOLLOWING ch
        if d.pv P.ctl_fe_react == 1 then d.blockCause 3 else d
      else d
    | none => d

/-- The identification is over (R226, R227). -/
def Dev.identOver (d : Dev) (r : IdentRun) : Dev :=
  let d := { d with ctl := { d.ctl with ident := none, idPulse := {} } }
  let (L, wide) := identResult r
  let finish := fun (d : Dev) => match r.cmd with
    | some c => d.complete c 0x0083 ⟨Sc.DONE, bytesLE 4 (if r.bad || wide then 0 else L.toNat), []⟩
    | none => d
  if r.bad || wide then finish (d.raise Ev.CTL_IDENT_FAIL)
  else
    let (vals, reduced) := d.identGains L
    let d := d.raise Ev.CTL_IDENT_DONE
    let d := if reduced then d.raise Ev.CTL_GAIN_REDUCED else d
    if r.apply then (if r.cmd.isSome then d.agreeCtl (.params vals true) r.cmd else d)
    else finish { d with par := { d.par with pending := vals.foldl (fun t x => t.set x.1 x.2) d.par.pending } }

def execIdentEnd (t : Nat) (s : State) : Answer :=
  s.upd t true fun _ d =>
    match d.ctl.ident with
    | some r => if r.ended then d.identOver r else d
    | none => d

/-! ## Host commands (Table 06-7) -/

/-- CTL_SOURCE (R215, R217, R219). While the engine is disabled the source stays HOST (R482). -/
def execCtlSource (t : Nat) (c : CmdRef) (host : Bool) (s : State) : Answer :=
  s.upd t true fun _ d => d.startCmd c 0x0080 fun d =>
    if !d.convLead then (d, some (stRes Sc.STATE))
    else if !host && !bitN d.mode.fnEnable 4 then (d, some (stRes Sc.DISABLED))
    else (d.agreeCtl (.source host) (some c), none)

/-- CTL_SETPOINT (R213, R225). A device that is no converter lead has no engine and answers DISABLED (DESIGN CHOICE, log entry 136). -/
def execCtlSetpoint (t : Nat) (c : CmdRef) (ch : Nat) (target : F32) (s : State) : Answer :=
  s.upd t true fun _ d => d.startCmd c 0x0081 fun d =>
    if !d.convLead then (d, some (stRes Sc.DISABLED))
    else if 6 ≤ ch ∨ !(f32le (d.pfi P.ctl_prof_min ch) target && f32le target (d.pfi P.ctl_prof_max ch)) then (d, some (stRes Sc.RANGE))
    else if d.ctl.ident.isSome then (d, some (stRes Sc.BUSY))
    else (d.agreeCtl (.setpoint ch target) (some c), none)

/-- One pushed record: the device, or the status that rejects it (R215). -/
def Dev.pushRef (d : Dev) (r : RefRec) : Dev × Option Nat :=
  let n := max 1 (d.pn P.ctl_n_ctl)
  let due := d.cyc.tk + (r.c0 - d.cyc.k) * d.tModTicks - ticksOfNs 2500
  let q := d.ctl.hostQ.get [] r.arm
  let held := q.any fun x => x.c0 == r.c0
  if 6 ≤ r.arm ∨ r.nc ≠ n ∨ r.c0 % n ≠ 0 then (d, some Sc.RANGE)
  else if r.c0 ≤ d.cyc.k ∨ due ≤ d.clk then (d, some Sc.LATE)
  else if 64 ≤ q.length ∧ !held then (d, some Sc.FULL)
  else
    let q' := if held then q.map fun x => if x.c0 = r.c0 then r else x else q ++ [r]
    ({ d with ctl := { d.ctl with hostQ := d.ctl.hostQ.set r.arm q' } }, none)

/-- The records of a command in their order, up to the first rejected one: how many were pushed, and its status. -/
def Dev.pushRefs (d : Dev) : List RefRec → Nat → Dev × Nat × Nat
  | [], n => (d, n, Sc.DONE)
  | r :: rs, n => match d.pushRef r with
    | (d', none) => d'.pushRefs rs (n + 1)
    | (_, some st) => (d, n, st)

/-- CTL_REF_PUSH (R215). A device that is no converter lead has no engine and answers DISABLED (DESIGN CHOICE, log entry 136). -/
def execCtlRefPush (t : Nat) (c : CmdRef) (recs : List RefRec) (s : State) : Answer :=
  s.upd t true fun _ d => d.runCmd c 0x0082 fun d =>
    if recs.isEmpty ∨ 6 < recs.length then (d, stRes Sc.BAD_ARG)
    else if !d.convLead then (d, stRes Sc.DISABLED)
    else
      let (d, n, st) := d.pushRefs recs 0
      (d, ⟨st, wordsBytes [n], []⟩)

/-- What CTL_IDENT asks for (R225). -/
def Dev.identAllowed (d : Dev) : Bool :=
  let l := d.ctl.laws
  let lim := f32mul (f32ofRat 5 100) (d.pf P.ctl_i_max_a)
  !d.ctl.host && d.mode.conv == .deblocked && decide (d.rNeedWith true ≤ d.goodReeds)
    && ([0, 1, 5].all fun c => f32eq (l.prof.get {} c).target f0) && f32lt (fmag l.ip) lim && f32lt (f32abs l.iDc) lim

/-- CTL_IDENT (R225 to R227). -/
def execCtlIdent (t : Nat) (c : CmdRef) (apply : Bool) (s : State) : Answer :=
  s.upd t true fun _ d => d.startCmd c 0x0083 fun d =>
    if !d.convLead || !d.identAllowed || d.ctl.ident.isSome then (d, some (stRes Sc.STATE))
    else (d.agreeCtl (.ident apply) (some c), none)

/-! ## Agreement with the twin (R229) -/

/-- A forwarded change, or the acknowledgement of one, arrives from the twin. -/
def execTwinApplyReceive (t : Nat) (u : TwinApply) (s : State) : Answer :=
  s.upd t true fun _ d =>
    match u with
    | .change b a => d.twinForwards b a
    | .ack b a => d.twinAcked b a

/-- The boundary passes without the twin's acknowledgement. -/
def execTwinApplyTimeout (t : Nat) (s : State) : Answer :=
  s.upd t true fun _ d => d.dropUnacked

end Sys2Proof.Machine
end

