-- ==== Sys2Proof/Machine/Queues.lean ====
section
/-!
DEFINITION. Machine/Queues.lean: the granule queues and their host commands (R409 to R416).
-/
namespace Sys2Proof.Machine

open Sys2Proof

/-- Granules of a payload (R409). -/
def granules (payload : List Byte) : Nat := ceilDiv payload.length 64

/-- Hardware producers (R409). -/
def hwProducer (p : Nat) : Bool := (68 ≤ p && p ≤ 76) || p == 78

/-- Granules of the complete items. -/
def Queue.complete (q : Queue) : Nat := q.items.foldl (fun n i => n + i.gran) 0
/-- The granule total: complete items and items being written (R410). -/
def Queue.total (q : Queue) : Nat := q.complete + q.partials.foldl (fun n p => n + p.2) 0

def Dev.queue (d : Dev) (n : Nat) : Queue := d.que.q.get {} n

/-- The queue is paused by FC_IN (R415). -/
def Dev.paused (d : Dev) (n : Nat) : Bool :=
  let f := d.pni P.que_fc_in n
  f < 4 && bitN d.que.fcIn f

/-- FC_OUT from the watermark flags (R415). -/
def Dev.fcOutOf (d : Dev) (q : Tab Queue) : Nat :=
  maskOf 4 fun n => q.any fun p => p.2.mark && d.pni P.que_fc_out p.1 == n

/-- The pool-low event, once per descent (R416). -/
def Dev.poolCheck (d : Dev) : Dev :=
  let below := decide (d.que.free < d.pn P.que_pool_low)
  let d' := { d with que := { d.que with low := below, poolMin := min d.que.poolMin d.que.free } }
  if below && !d.que.low then d'.raise Ev.QUE_POOL_LOW else d'

/-- Queue `n` and the pool after a change, with the watermark flag (R415) and the pool check. -/
def Dev.setQueue (d : Dev) (n : Nat) (q : Queue) (free : Nat) : Dev :=
  let g := q.complete
  let m := if d.pni P.que_wm_hi n ≤ g then true else if g ≤ d.pni P.que_wm_lo n then false else q.mark
  let qs := d.que.q.set n { q with mark := m }
  let d' := { d with que := { d.que with q := qs, free := free, fcOut := d.fcOutOf qs } }
  let d' := if m && !q.mark then d'.raiseLim Ev.QUE_HIGH n (ticksOfS 1) n
    else if !m && q.mark then d'.raiseLim Ev.QUE_LOW n (ticksOfS 1) n
    else d'
  d'.poolCheck

/-- Granules that producer `p` can still draw for an item of queue `n` (R410). -/
def Dev.drawable (d : Dev) (n : Nat) (q : Queue) : Nat := min (d.pni P.que_cap_gran n - q.total) d.que.free

/-- A push that still needs `need` granules meets a full queue (R410). A pause by FC_IN holds back only an item that has not
`begun` (R415). -/
def Dev.pushFull (d : Dev) (n : Nat) (q : Queue) (need : Nat) (begun : Bool) : Bool :=
  decide (d.drawable n q < need) || decide (d.pni P.que_cap_items n ≤ q.items.length) || (d.paused n && !begun)

/-- The item is enqueued: it becomes visible with the queue's next sequence number. -/
def Dev.enqueue (d : Dev) (n : Nat) (q : Queue) (p : Nat) (payload : List Byte) : Dev :=
  let g := granules payload
  let drawn := q.partials.get 0 p
  let q' := { q with items := q.items ++ [⟨g, p, q.seq, payload⟩], seq := q.seq + 1,
                     partials := q.partials.erase p, stalled := q.stalled.erase p }
  ({ d with que := { d.que with pushed := d.que.pushed + 1 } }).setQueue n q' (d.que.free + drawn - g)

/-- A push at full (R412): a hardware producer's item is dropped and counted, another producer stalls with the granules
it could draw. -/
def Dev.pushAtFull (d : Dev) (n : Nat) (q : Queue) (p : Nat) (payload : List Byte) : Dev :=
  let d' :=
    if hwProducer p then
      { d with que := { d.que with q := d.que.q.set n { q with overflow := q.overflow + 1 } } }
    else
      let drawn := q.partials.get 0 p
      let k := if d.paused n && drawn == 0 then 0 else min (granules payload - drawn) (d.drawable n q)
      { d with que := { d.que with q := d.que.q.set n { q with stalled := q.stalled.set p payload, partials := q.partials.set p (drawn + k) },
                                   free := d.que.free - k, stalls := if (q.stalled.find p).isSome then d.que.stalls else d.que.stalls + 1 } }
  if hwProducer p then d'.raiseLim Ev.QUE_OVERFLOW n (ticksOfS 1) n else d'.poolCheck

/-- A push by producer `p` (R410, R412). -/
def Dev.push (d : Dev) (n p : Nat) (payload : List Byte) : Dev :=
  let q := d.queue n
  if d.pushFull n q (granules payload - q.partials.get 0 p) (q.partials.get 0 p != 0) then d.pushAtFull n q p payload
  else d.enqueue n q p payload

/-- A pop of the oldest item; its granules are freed. -/
def Dev.popItem (d : Dev) (n : Nat) : Dev × Option Item :=
  let q := d.queue n
  match q.items with
  | [] => (d, none)
  | i :: r =>
    (({ d with que := { d.que with popped := d.que.popped + 1 } }).setQueue n { q with items := r } (d.que.free + i.gran), some i)

/-! ## Units and reeds -/

/-- After a change of que.* the watermark flags, FC_OUT and the pool check follow the values in force (R415, R416). -/
def Dev.queFollow (d : Dev) : Dev :=
  (d.que.q.foldl (fun (d : Dev) x => d.setQueue x.1 (d.queue x.1) d.que.free) d).poolCheck

/-- Producer `p` may push: a reed only in a task of class LAG, LAW or BACK (R234), and none that stalls (R412). -/
def Dev.mayPush (d : Dev) (p : Nat) : Bool :=
  (decide (64 ≤ p) || !(d.cyc.deque.get [] p).isEmpty) && !d.que.q.any fun q => (q.2.stalled.find p).isSome

/-- An item's end-of-item word is written (R410). -/
def execQueuePushEnd (t : Nat) (q prod : Nat) (payload : List Byte) (s : State) : Answer :=
  s.upd t (q < 1024 && prod < 256 && itemOk payload) fun _ d => if d.mayPush prod then d.push q prod payload else d

/-- A pop in WAIT or TRY mode (R411). -/
def execQueuePop (t : Nat) (q : Nat) (wait : Bool) (s : State) : Answer :=
  s.upd t (q < 1024) fun _ d => match d.popItem q with
    | (d', some i) => d'.emit (.item q i)
    | (d', none) => if wait then { d' with que := { d'.que with q := d'.que.q.set q { d'.queue q with waitPop := true } } } else d'.emit (.itemNone q)

/-- A stalled WAIT pop completes once an item is there (Table 12-13). -/
def execWaitPopComplete (t : Nat) (q : Nat) (s : State) : Answer :=
  s.upd t (q < 1024) fun _ d =>
    if (d.queue q).waitPop then match d.popItem q with
      | (d', some i) =>
        { d' with que := { d'.que with q := d'.que.q.set q { d'.queue q with waitPop := false } } }.emit (.item q i)
      | (d', none) => d'
    else d

/-- A stalled producer continues once the queue has room (R412), as far as it can draw granules. -/
def execProducerStallResume (t : Nat) (q prod : Nat) (s : State) : Answer :=
  s.upd t (q < 1024 && prod < 256) fun _ d =>
    match (d.queue q).stalled.find prod with
    | none => d
    | some payload =>
      let u := d.queue q
      if d.pushFull q u (granules payload - u.partials.get 0 prod) (u.partials.get 0 prod != 0) then d.pushAtFull q u prod payload else d.enqueue q u prod payload

/-- A level of FC_IN accepted after 2 PER cycles (R415). -/
def execFcInChange (t : Nat) (n : Nat) (high : Bool) (s : State) : Answer :=
  s.upd t (n < 4) fun _ d =>
    { d with que := { d.que with fcIn := maskOf 4 fun i => if i = n then high else bitN d.que.fcIn i } }

/-! ## Host commands (R413, R414) -/

/-- que.host: 0 NONE, 1 POP, 2 PUSH. -/
def Dev.hostMay (d : Dev) (q : Nat) : Nat := d.pni P.que_host q

/-- QUE_INFO (R414). -/
def execQueInfo (t : Nat) (c : CmdRef) (q : Nat) (s : State) : Answer :=
  s.upd t true fun _ d => d.runCmd c 0x00E0 fun d =>
    if 1024 ≤ q then (d, stRes Sc.RANGE)
    else if d.hostMay q = 0 then (d, stRes Sc.DENIED)
    else
      let u := d.queue q
      (d, ⟨Sc.DONE, wordsBytes [u.total % 2 ^ 24 + 2 ^ 24 * bit01 u.mark + 2 ^ 25 * bit01 (d.paused q) + 2 ^ 26 * bit01 u.waitPop,
        u.items.length, u.overflow.toNat, u.trunc.toNat], []⟩)

/-- An item as QUE_POP writes it: its descriptor (Table 12-12) and its payload in whole granules. -/
def Item.bytes (i : Item) : List Byte :=
  bytesLE 4 ((i.gran - 1) + i.payload.length * 64 + i.prod * 2 ^ 19) ++ bytesLE 4 i.seq.toNat
    ++ i.payload ++ List.replicate (i.gran * 64 - i.payload.length) 0

/-- Up to `n` TRY pops while the items fit in `room` bytes. -/
def Dev.popMany (d : Dev) (q : Nat) : Nat → Nat → List Byte → Nat → Dev × List Byte × Nat
  | 0, _, acc, k => (d, acc, k)
  | n + 1, room, acc, k =>
    match (d.queue q).items with
    | [] => (d, acc, k)
    | i :: _ =>
      if room < 8 + i.gran * 64 then (d, acc, k)
      else (d.popItem q).1.popMany q n (room - (8 + i.gran * 64)) (acc ++ i.bytes) (k + 1)

/-- QUE_POP (R414). -/
def execQuePop (t : Nat) (c : CmdRef) (q items bufLen : Nat) (s : State) : Answer :=
  s.upd t true fun _ d => d.runCmd c 0x00E1 fun d =>
    if 1024 ≤ q ∨ 256 < items then (d, stRes Sc.RANGE)
    else if d.hostMay q ≠ 1 then (d, stRes Sc.DENIED)
    else if (d.queue q).items = [] then (d, stRes Sc.EMPTY)
    else
      let r := d.popMany q items bufLen [] 0
      (r.1, ⟨Sc.DONE, wordsBytes [r.2.2], r.2.1⟩)

/-- The payloads in QUE_PUSH's data out: a 4-byte length, then the payload padded to 4 bytes; an empty one where the data
end before the length given. -/
def pushPayloads : Nat → List Byte → List (List Byte)
  | 0, _ => []
  | n + 1, bs =>
    let len := natLE (bs.take 4)
    (if (bs.drop 4).length < len then [] else (bs.drop 4).take len) :: pushPayloads n (bs.drop (4 + ceilDiv len 4 * 4))

/-- Whole items pushed until one meets a full queue: the number pushed, and whether all were. -/
def Dev.pushMany (d : Dev) (q : Nat) : List (List Byte) → Nat → Dev × Nat × Bool
  | [], k => (d, k, true)
  | p :: ps, k =>
    if d.pushFull q (d.queue q) (granules p) false then (d, k, false)
    else (d.enqueue q (d.queue q) 77 p).pushMany q ps (k + 1)

/-- QUE_PUSH (R412, R414). -/
def execQuePush (t : Nat) (c : CmdRef) (q count : Nat) (data : List Byte) (s : State) : Answer :=
  s.upd t true fun _ d => d.runCmd c 0x00E2 fun d =>
    let ps := pushPayloads count data
    if 1024 ≤ q then (d, stRes Sc.RANGE)
    else if d.hostMay q ≠ 2 then (d, stRes Sc.DENIED)
    else if ps.any (fun p => !itemOk p) then (d, stRes Sc.BAD_ARG)
    else
      let r := d.pushMany q ps 0
      (r.1, ⟨if r.2.2 then Sc.DONE else Sc.FULL, wordsBytes [r.2.1], []⟩)

/-- A flush: complete items and items being written are discarded (R413). -/
def Dev.flush (d : Dev) (n : Nat) : Dev :=
  let q := d.queue n
  let k := q.partials.length
  let d' := d.setQueue n { q with items := [], partials := [], stalled := [], trunc := q.trunc + BitVec.ofNat 32 k } (d.que.free + q.total)
  if k = 0 then d' else d'.raiseLim Ev.QUE_FLUSH_TRUNC n (ticksOfS 1) n

/-- QUE_FLUSH (R413), for a queue that que.host opens to POP or PUSH (R414; DEDUCED, log entry 136). -/
def execQueFlush (t : Nat) (c : CmdRef) (q : Nat) (s : State) : Answer :=
  s.upd t true fun _ d => d.runCmd c 0x00E3 fun d =>
    if 1024 ≤ q then (d, stRes Sc.RANGE)
    else if d.hostMay q = 0 then (d, stRes Sc.DENIED)
    else (d.flush q, stRes Sc.DONE)

end Sys2Proof.Machine
end

