-- ==== Sys2Proof/Machine/Faults.lean ====
section
/-!
DEFINITION. Machine/Faults.lean: fatal faults, the cast, and the errors of SRAM and DRAM (R29, R33, R463 to R470).
-/
namespace Sys2Proof.Machine

open Sys2Proof

/-! ## Fatal faults (R29, R468, R469) -/

/-- REFCLK or the root PLL fails: fatal cause 0x01, and no frame at all (R29). -/
def execRefclkFault (t : Nat) (s : State) : Answer :=
  s.upd t true fun _ d => if d.boot.started then d.fatal 1 0 else d

/-- A fatal cause of Table 14-11 occurs. -/
def execFatalFault (t : Nat) (cause arg : Nat) (s : State) : Answer :=
  s.upd t (1 ≤ cause && cause ≤ 7) fun _ d => if d.boot.started then d.fatal cause arg else d

/-- A control core has had no watchdog service for 10 ms: cause 0x03. -/
def execCoreWatchdogExpiry (t : Nat) (core : Nat) (s : State) : Answer :=
  s.upd t (core < 4) fun _ d => if d.boot.started then d.fatal 3 core else d

/-- The cast and its summary are written: with RESTART and fewer than three fatal faults within 10 minutes the device
restarts, otherwise it halts (R468). A killed device stays halted (R456). -/
def execCastWriteDone (t : Nat) (b : BootInputs) (s : State) : Answer :=
  s.updAll t (b.straps.length == 8) fun s =>
    match s.dev.flt.castHead with
    | none => s
    | some head =>
      let d := s.dev.castDone head
      let s := { s with dev := d }
      if d.pv P.sys_fatal_restart == 1 && decide (d.flt.times.length < 3) then s.restart false b
      else { s with dev := { d with boot := { d.boot with halted := true } } }

/-- CAST_READ returns bytes of a cast slot (R470). -/
def execCastRead (t : Nat) (c : CmdRef) (slot offset length : Nat) (s : State) : Answer :=
  s.upd t true fun _ d => d.runCmd c 0x0106 fun d =>
    match (if slot = 0 then d.flt.cast0 else if slot = 1 then d.flt.cast1 else none) with
    | some x => if castLen x.no < offset + length then (d, stRes Sc.RANGE) else (d, ⟨Sc.DONE, [], x.bytesAt offset length⟩)
    | none => (d, stRes Sc.RANGE)

/-- CAST_CLEAR empties both slots (R470). -/
def execCastClear (t : Nat) (c : CmdRef) (s : State) : Answer :=
  s.upd t true fun _ d => d.runCmd c 0x0107 fun d =>
    ({ d with flt := { d.flt with cast0 := none, cast1 := none } }, stRes Sc.DONE)

/-! ## SRAM (R33, R466) -/

/-- The number of a memory in the counts: reeds 0 to 63, then the others. -/
def sramKey : SramMem → Nat
  | .reedLocal n => n
  | .granulePool _ => 64
  | .recStaging => 65
  | .coefficient _ => 66
  | .l1 => 67
  | .l2 => 68
  | .retention => 69

/-- A corrected single-bit error counts per memory, and against the reed whose memory it is (R256). -/
def execSramCorrectedError (t : Nat) (mem : SramMem) (s : State) : Answer :=
  s.upd t (sramOk mem) fun _ d =>
    let d := { d with flt := { d.flt with sramCe := d.flt.sramCe.modify 0 (sramKey mem) (· + 1) } }
    let d := d.raiseLim Ev.SYS_SRAM_CE 0 (ticksOfS 1) (sramKey mem)
    match mem with
    | .reedLocal n => (d.setReed n { d.reed n with ecc := (d.reed n).ecc + 1 }).reedError n
    | .granulePool _ => { d with que := { d.que with eccCe := d.que.eccCe + 1 } }
    | _ => d

/-- A chain whose coefficient slot is lost stops as R165 has it for its stream. -/
def Dev.coefLost (d : Dev) (slot n : Nat) : Dev :=
  let c := d.chain n
  if !c.on || c.perm || (c.slot != slot && !(c.fade.isSome && c.inSlot == slot)) then d
  else
    let d := (d.chainOff n)
    let d := (d.setChain n { d.chain n with perm := true }).raise Ev.MEAS_STREAM_PERM n
    if n < 48 then d.cellFail n else d

/-- The oldest item of a queue is lost to a double-bit error in the granule pool, its granules freed. -/
def Dev.loseItem (d : Dev) (q : Nat) : Dev :=
  let d := { d with que := { d.que with eccUe := d.que.eccUe + 1 } }
  match (d.queue q).items with
  | i :: r => d.setQueue q { d.queue q with items := r } (d.que.free + i.gran)
  | [] => d

/-- A double-bit error (R466): it retires a reed, discards an item or staged samples, stops the chains of a coefficient
slot, or is fatal. -/
def execSramDoubleError (t : Nat) (mem : SramMem) (s : State) : Answer :=
  s.upd t (sramOk mem) fun _ d =>
    match mem with
    | .reedLocal n =>
      let d := if d.cyc.run && d.busyReed n then d.rerunFrom n else d
      d.retireReed n
    | .granulePool q => d.loseItem q
    | .recStaging => if d.acq.hist.isEmpty then d else d.recLose 1
    | .coefficient slot =>
      (List.range 104).foldl (fun d n => d.coefLost slot n) { d with flt := { d.flt with coefBad := slot :: d.flt.coefBad } }
    | .l1 | .l2 | .retention => d.fatal 2 (sramKey mem)

/-! ## DRAM (R463 to R465, R467) -/

/-- The base page of the cast region: the highest free 32 MB at the top of the DRAM without a mapped-out page (R467,
R469). -/
def Dev.castBase (d : Dev) : Nat :=
  let n := d.flt.dramPages / 8192
  let clear := fun (b : Nat) => d.flt.mapped.all fun m => m.1 < b || b + 8192 ≤ m.1
  (((List.range n).reverse.map (· * 8192)).find? clear).getD 0

/-- A page is mapped out (R465): it is entered in the table, at most 1,024 pages, and leaves the pool of its user at the
next boundary. -/
def Dev.mapOut (d : Dev) (page : Nat) : Dev :=
  if d.flt.mapped.any (fun m => m.1 == page) then d
  else
    let f := d.flt
    let full := decide (1024 ≤ f.mapped.length)
    let secs := ((d.wallNow.toNat >>> 48) % 2 ^ 32)
    let mapped := if full then f.mapped else f.mapped ++ [(page, secs)]
    let d := { d with flt := { f with mapped := mapped, pages := f.pages.erase page, leaving := f.leaving ++ [page] } }.raise Ev.SYS_DRAM_PAGE page
    if !f.degraded && (decide (1024 ≤ mapped.length) || decide (f.dramPages < 100 * mapped.length)) then
      ({ d with flt := { d.flt with degraded := true } }).raise Ev.SYS_DRAM_DEGRADED
    else d

/-- The slot of the cast region that holds a page is damaged (R464). -/
def Dev.damageCast (d : Dev) (page : Nat) : Dev :=
  let mark := fun (c : Cast) => { c with damaged := true }
  if d.flt.castHead.isSome && decide (d.castBase ≤ page) && d.flt.cast0.isNone == decide (page < d.castBase + 4096) then
    { d with flt := { d.flt with castHurt := true } }
  else if page < d.castBase + 4096 then { d with flt := { d.flt with cast0 := d.flt.cast0.map mark } }
  else { d with flt := { d.flt with cast1 := d.flt.cast1.map mark } }

/-- A DRAM error adds 64 to the page's bucket; at 512, or when it cannot be corrected, the page is mapped out. An
uncorrectable one discards the staged image or damages the cast (R464). -/
def execDramError (t : Nat) (page : Nat) (corrected : Bool) (user : DramUser) (s : State) : Answer :=
  s.updAll t (page < s.dev.flt.dramPages) fun s =>
    let d := s.dev
    if corrected then
      let b := d.flt.pages.get 0 page + 64
      let d := { d with flt := { d.flt with pages := d.flt.pages.set page b } }
      { s with dev := if 512 ≤ b then d.mapOut page else d }
    else
      let d := match user with
        | .cast => d.damageCast page
        | _ => d
      { s with dev := d.mapOut page, flash := if user = .staging then { s.flash with staged := [], verified := none } else s.flash }

/-- Mapped-out pages leave the pools at a boundary (R372, R465). -/
def Dev.dramBoundary (d : Dev) : Dev :=
  let d' := d.flt.leaving.foldl (fun (d : Dev) page =>
    if (d.segmentOf page).1 < d.acq.pool then d.loseSegment (d.segmentOf page).1 (d.segmentOf page).2 else d) d
  { d' with flt := { d'.flt with leaving := [] } }

/-- Each second, every page's bucket is reduced by 1. -/
def execDramPageDecay (t : Nat) (s : State) : Answer :=
  s.upd t true fun _ d =>
    { d with flt := { d.flt with pages := (d.flt.pages.map fun (p : Nat × Nat) => (p.1, p.2 - 1)).filter fun p => p.2 != 0 } }

/-- The scrub of the whole DRAM (R464); what it meets comes as DRAM_ERROR. -/
def execDramScrub (t : Nat) (s : State) : Answer :=
  s.upd t true fun _ d => { d with flt := { d.flt with scrubs := d.flt.scrubs + 1 } }

end Sys2Proof.Machine
end

