-- ==== Sys2Proof/Machine/Sar.lean ====
section
/-!
DEFINITION. Machine/Sar.lean: the SAR converters, their sequencers, calibration and results (R170 to R188), and the die
temperature (R186, R492).
-/
namespace Sys2Proof.Machine

open Sys2Proof

def Dev.sarSeq (d : Dev) (n : Nat) : SarSeq := d.sar.seq.get {} n
def Dev.setSarSeq (d : Dev) (n : Nat) (x : SarSeq) : Dev := { d with sar := { d.sar with seq := d.sar.seq.set n x } }
def Dev.sarChan (d : Dev) (n : Nat) : SarChan := d.sar.ch.get {} n
def Dev.setSarChan (d : Dev) (n : Nat) (x : SarChan) : Dev := { d with sar := { d.sar with ch := d.sar.ch.set n x } }

/-- A sequencer runs: its list is not empty, its converter works, its function is enabled and the reference has settled
(R173, R174, R178, R184, R482, R485, R491); sequencer 3 always has its monitors, which sequencer 2 takes over. -/
def Dev.sarRuns (d : Dev) (n : Nat) : Bool :=
  !(d.sarSeq n).halted && !d.sar.settling && (d.sarSeq n).cal.isNone && !(d.sarSlots n).isEmpty
    && !(d.mode.doms.get {} 10).faulty && d.mode.power != .rest
    && (n == 3 || (bitN d.mode.fnEnable 1 && d.mode.power == .run) || (d.sarSeq 3).halted && n == 2)

/-- The list of the next pass: only the monitors while the host's sequencers are disabled, and in IDLE. -/
def Dev.passSlots (d : Dev) (n : Nat) : List (Nat × Nat) :=
  if (n != 3 && !bitN d.mode.fnEnable 1) || d.mode.power != .run then (d.sarSlots n).filter fun s => decide (24 ≤ s.1) && decide (16 ≤ slotCh s.2) else d.sarSlots n

/-- TBASE ticks of a conversion with acquisition `acq` (R170), after the start-up of a converter that was powered down
(R176). A PER cycle is 5 ticks. -/
def convTicks (off : Bool) (acq : Nat) : Nat := 5 * (250 * bit01 off + acq + 17)

/-- A pass starts at slot 0. -/
def Dev.startPass (d : Dev) (n : Nat) : Dev :=
  if d.sarRuns n then
    let q := d.sarSeq n
    let slots := d.passSlots n
    d.setSarSeq n { q with run := true, slots := slots, pos := 0, staged := [], noPush := false, start := d.tbc, len := d.sarLen n, off := false,
                           due := d.clk + convTicks q.off ((slots.head?.map fun s => slotAcq s.2).getD 0) }
  else d

/-- The present instant is the nearest PER edge to a whole multiple of sar.seq_period_ns in control time, or on the local
grid before control time is valid (R175). -/
def Dev.pacedDue (d : Dev) (n : Nat) : Bool :=
  let per : Int := max 1 ((d.pni P.sar_seq_period_ns n * 5 / 8 : Nat) : Int) * 2 ^ 32
  let now : Int := (if d.tim.ctValid then d.ctNow else d.tbc32) % per
  decide (2 * min now (per - now) ≤ 5 * 2 ^ 32)

/-- A sequencer restarts at slot 0: FREE at once, PACED at its next instant. -/
def Dev.restartSeq (d : Dev) (n : Nat) : Dev := if d.pvi P.sar_seq_mode n = 0 then d.startPass n else d

/-- A pass of a PACED sequencer starts, or the first one of a FREE sequencer (R173, R175). -/
def execSarPassStart (t : Nat) (n : Nat) (s : State) : Answer :=
  s.upd t (n < 4) fun _ d =>
    if (d.sarSeq n).run || (d.pvi P.sar_seq_mode n == 1 && !d.pacedDue n) then d else d.startPass n

/-- At a modulation-cycle boundary a sequencer that has been stopped ends its pass without its item (R184). -/
def Dev.sarBoundary (d : Dev) : Dev :=
  (List.range 4).foldl (fun (d : Dev) n =>
    let q := d.sarSeq n
    let zero := d.pni P.sar_seq_len n == 0
    let stopped := q.disabled || (n != 3 && !(n == 2 && (d.sarSeq 3).halted) && (zero || !bitN d.mode.fnEnable 1))
    d.setSarSeq n { q with noPush := q.noPush || (q.run && stopped), len := if zero then 0 else q.len, halted := q.disabled }) d

/-- The correction of R182: the result, and whether it saturates. -/
def sarCorrect (x z k : Int) : Int × Bool :=
  let y := ((16 * x - z) * k + 2 ^ 33) / 2 ^ 34
  let c := clampInt (-32768) 32767 y
  (c, decide (c ≠ y))

/-- The expected reference, µV. -/
def Dev.refExpected (d : Dev) : Int := ((if d.sar.ext = 0 then 2500 else d.sar.refMv : Nat) : Int) * 1000

/-- VMON3, in steps of 125 µV, differs from the expected reference by more than 2 % (R178). -/
def Dev.refOff (d : Dev) (y : Int) : Bool := decide (2 * d.refExpected < 100 * (y * 125 - d.refExpected).natAbs)

/-- The deviation has fallen below 1 %. -/
def Dev.refBack (d : Dev) (y : Int) : Bool := decide (100 * ((y * 125 - d.refExpected).natAbs : Int) < d.refExpected)

/-- The 16-byte result entry (Table 05-3). -/
def sarEntry (y : Int) (tag ch slot adc pass tbc : Nat) : List Byte :=
  bytesLE 2 (wrapN 16 y) ++ bytesLE 1 tag ++ bytesLE 1 ch ++ bytesLE 1 (slot + 32 * adc) ++ bytesLE 3 pass ++ bytesLE 8 tbc

/-- The check bit of a converter (R187). -/
def Dev.sarCheck (d : Dev) (n : Nat) (ok : Bool) : Dev :=
  let q := d.sarSeq n
  if ok then d.setSarSeq n { q with bucket := q.bucket - 1 }
  else
    let b := min 4096 (q.bucket + 64)
    if b < 4096 ∨ q.disabled then d.setSarSeq n { q with bucket := b }
    else
      let d := (d.setSarSeq n { q with bucket := b, disabled := true }).raise Ev.SAR_ADC_DISABLED n
      if n = 3 ∧ 24 < d.pni P.sar_seq_len 2 then d.raise Ev.SAR_SLOTS_CUT 2 else d

/-- A conversion of slot `slot` with word `w` on converter `n` gives raw code `x` (R177, R178, R182, R183, R185). -/
def Dev.sarResult (d : Dev) (n slot w : Nat) (x : Int) (ok : Bool) : Dev :=
  let ch := slotCh w
  let ain := ch < 16
  let c := d.sarChan ch
  let g := if ain then d.pni P.sar_gain ch else 0
  let (y, o) := if ain && bitN (d.pni P.sar_cal_valid ch) g then sarCorrect x (d.pvi P.sar_cal_ofs (4 * ch + g)) (d.pvi P.sar_cal_k (4 * ch + g))
    else (x, false)
  let uncal := ain && !bitN (d.pni P.sar_cal_valid ch) g
  let d := if ch = 23 then
      if !d.sar.refFault && d.refOff y then { d with sar := { d.sar with refFault := true } }.raise Ev.SAR_REF_FAULT
      else if d.sar.refFault && d.refBack y then { d with sar := { d.sar with refFault := false } }
      else d
    else d
  let sat := o || x == -32768 || x == 32767 || (ain && d.sar.refFault)
  let v := ok && c.skip == 0
  let tag := bit01 v + 2 * bit01 sat + 4 * bit01 uncal + 8 * g
  let q := d.sarSeq n
  let tbc := (d.tbc + 2 ^ 64 - 85) % 2 ^ 64
  let c := { c with skip := c.skip - 1, last := y, lastTag := tag, lastAt := d.clk }
  let c := if slotDr w then { c with value := y, tag := tag, slot := slot, adc := n, tbc := tbc, ovr := c.ovr || c.loRead, seen := true, count := c.count + 1 } else c
  let d := d.setSarChan ch c
  let d := if ch < 16 then d
    else
      let m := d.sar
      { d with sar := { m with monMax := m.monMax.set (ch - 16) (max y (m.monMax.get y (ch - 16))),
                               monMin := m.monMin.set (ch - 16) (min y (m.monMin.get y (ch - 16))) } }
  let d := if slotQ w then d.setSarSeq n { q with staged := q.staged ++ sarEntry y tag ch slot n q.pass tbc } else d
  let d := if slotQ w && d.sarSource ch == some n && (q.slots.find? fun s => slotCh s.2 == ch && slotQ s.2).map (·.1) == some slot then
      d.recPut (0x4000 + ch) ⟨q.pass, (d.tim.ct.at (((tbc : Nat) : Int) * 2 ^ 32)) / 2 ^ 24, f32ofInt y, y, tag, v && !sat⟩ else d
  if 16 ≤ ch ∧ ch < 20 then
    { d with mode := { d.mode with temps := d.mode.temps.set (ch - 16) y,
                                   tempOk := maskOf 4 fun i => if i = ch - 16 then v && !sat else bitN d.mode.tempOk i } }
  else d

/-- A conversion of a calibration counts (R179), and among the conversions of its channel that follow a gain change
(R177). -/
def Dev.calSample (d : Dev) (n : Nat) (k : SarCal) (x : Int) : Dev :=
  let c := d.sarChan k.ch
  let d := d.setSarChan k.ch { c with skip := c.skip - 1 }
  d.setSarSeq n { d.sarSeq n with due := d.clk + convTicks false 64,
                                  cal := some { k with got := k.got + 1, sum := k.sum + x, sat := k.sat || x == -32768 || x == 32767 } }

/-- The conversion of the pass's slot under way ends: its result; then the next slot's, after a start-up where this one powers
the converter down (R176). A SAR_CAL or a change of the reference ends the pass here (R178, R179). -/
def Dev.slotEnd (d : Dev) (n slot w : Nat) (x : Int) (ok : Bool) : Dev :=
  let d := d.sarResult n slot w x ok
  let q := d.sarSeq n
  let off := slotPd w
  let pos := q.pos + 1
  match q.slots[pos]? with
  | some s =>
    if q.stop || q.cal.isSome then d.setSarSeq n { q with run := false, staged := [], off := off, due := d.clk + convTicks off 64 }
    else d.setSarSeq n { q with pos := pos, off := false, due := d.clk + convTicks off (slotAcq s.2) }
  | none => d.setSarSeq n { q with pos := pos, off := off, due := d.clk + convTicks off 64 }

/-- A conversion completes on converter `adc` with raw code `raw` (DESIGN CHOICE, log entry 51: for the monitors, after the factory
trim of R172), no earlier than its acquisition and its 17 PER cycles allow (R170). A converter whose reference settles gives
no result (R178). -/
def execSarConversionEnd (t : Nat) (adc : Nat) (raw : Int) (checkOk : Bool) (s : State) : Answer :=
  s.upd t (adc < 4 && decide (-32768 ≤ raw) && decide (raw ≤ 32767)) fun _ d =>
    let q := d.sarSeq adc
    if d.clk < q.due || (d.sar.settling && !q.stop) then d
    else
      let d := d.sarCheck adc checkOk
      let d := d.setSarSeq adc { d.sarSeq adc with convs := (d.sarSeq adc).convs + 1 }
      let slot : Option (Nat × Nat) := if q.run then q.slots[q.pos]? else none
      let d := match slot, q.cal with
        | some (slot, w), _ => d.slotEnd adc slot w raw checkOk
        | none, some k => if k.got < k.n then d.calSample adc k raw else d
        | none, none => d
      if q.stop then
        let d := { d with sar := { d.sar with settleAt := d.clk } }
        d.setSarSeq adc { d.sarSeq adc with stop := false }
      else d

/-- The die temperature after a monitor pass: the highest ok reading and the spread, in 1/128 °C (R492). -/
def Dev.tempCheck (d : Dev) : Dev :=
  let ok := (List.range 4).filter (bitN d.mode.tempOk)
  match ok.map (d.mode.temps.get 0 ·) with
  | [] => d
  | t :: ts =>
    let hi := ts.foldl max t
    let lo := ts.foldl min t
    let warn := decide (d.pv P.mode_tj_warn_c * 128 ≤ hi)
    let trip := decide (d.pv P.mode_tj_trip_c * 128 ≤ hi)
    let (w0, t0) := (d.mode.tjWarned, d.mode.tjTripped)
    let d := { d with mode := { d.mode with tjWarned := warn, tjTripped := t0 || trip } }
    let d := if warn && !w0 then d.raise Ev.MODE_TJ_WARN else d
    let d := if trip && !t0 then (d.raise Ev.MODE_TJ_TRIP).segmentFault else d
    let due := match d.sar.tgradAt with
      | some a => decide (a + ticksOfS 60 ≤ d.clk)
      | none => true
    if decide (3200 < hi - lo) && due then { d with sar := { d.sar with tgradAt := some d.clk } }.raise Ev.MODE_TGRAD else d

/-- Entries of an item filled up to whole granules (R183). -/
def padItem (bs : List Byte) : List Byte :=
  let unused : List Byte := bytesLE 3 0 ++ [0x1F#8] ++ bytesLE 12 0
  bs ++ (List.replicate ((4 - bs.length / 16 % 4) % 4) unused).flatten

/-- A pass ends: its item is pushed, and a FREE sequencer starts the next one (R173, R175, R183, R184). -/
def execSarPassEnd (t : Nat) (n : Nat) (s : State) : Answer :=
  s.upd t (n < 4) fun _ d =>
    let q := d.sarSeq n
    if !q.run || q.pos < q.slots.length then d
    else
      let some_ := !q.staged.isEmpty
      let d := d.setSarSeq n { q with run := false, staged := [], pass := (q.pass + 1) % 2 ^ 24,
                                      pushed := if some_ && !q.noPush then q.pushed + 1 else q.pushed,
                                      dropped := if some_ && q.noPush then q.dropped + 1 else q.dropped }
      let d := if q.noPush || q.staged.isEmpty then d else d.push (d.pni P.sar_queue n) (68 + n) (padItem q.staged)
      let d := if q.slots.any (fun s => decide (24 ≤ s.1)) then d.tempCheck else d
      d.restartSeq n

/-- 1 ms after the sequencers have stopped for a change of the reference they restart at slot 0, and the first two
conversions of every channel are not valid (R178). -/
def execSarRefSettled (t : Nat) (s : State) : Answer :=
  s.upd t true fun _ d =>
    if d.sar.settling && decide (d.sar.settleAt + ticksOfMs 1 ≤ d.clk) && !(List.range 4).any (fun n => (d.sarSeq n).stop) then
      let d := { d with sar := { d.sar with settling := false, ext := d.sar.extNext, refMv := d.pn P.sar_refin_mv } }
      let d := (List.range 24).foldl (fun (d : Dev) c => d.setSarChan c { d.sarChan c with skip := 2 }) d
      (List.range 4).foldl (fun (d : Dev) n => d.restartSeq n) d
    else d

/-- A calibration fails: the coefficients stay (R181). -/
def Dev.calFails (d : Dev) (k : SarCal) (st : Nat) : Dev := (d.raise Ev.SAR_CAL_FAIL (k.ch + 256 * k.gain)).complete k.cmd 0x0070 (stRes st)

/-- FULL without a pending ZERO. -/
def Dev.calLacks (d : Dev) (k : SarCal) : Bool := k.full && ((d.sarChan k.ch).zeros.find k.gain).isNone

/-- A calibration begins once the conversion under way has ended (R179); one that lacks its ZERO fails. Of those that wait for
the same converter the oldest is next. -/
def Dev.nextCal (d : Dev) (n : Nat) : List SarCal → Dev
  | [] => (d.setSarSeq n { d.sarSeq n with cal := none, calWait := [] }).restartSeq n
  | k :: ks =>
    if (d.sarSeq n).disabled then (d.calFails k Sc.DISABLED).nextCal n ks
    else if d.calLacks k then (d.calFails k Sc.NO_ZERO).nextCal n ks
    else
      let q := d.sarSeq n
      d.setSarSeq n { q with cal := some { k with n := d.pn P.sar_cal_n }, calWait := ks, off := false,
                             due := if q.run && decide (q.pos < q.slots.length) then q.due else max q.due (d.clk + convTicks q.off 64) }

/-- The outcome of a calibration whose conversions are over (R180, R181). -/
def Dev.calDone (d : Dev) (k : SarCal) : Dev :=
  let m := (16 * k.sum + k.n / 2) / (k.n : Int)
  let c := d.sarChan k.ch
  if k.sat then d.calFails k Sc.CAL_SAT
  else if !k.full then
    if 16384 < m.natAbs then d.calFails k Sc.CAL_RANGE
    else (d.setSarChan k.ch { c with zeros := c.zeros.set k.gain m }).complete k.cmd 0x0070 (stRes Sc.DONE)
  else match c.zeros.find k.gain with
    | none => d.calFails k Sc.NO_ZERO
    | some z =>
      let den := m - z
      let num := k.target * 2 ^ 34
      let (num, den) := if den < 0 then (-num, -den) else (num, den)
      let kq := if den = 0 then 0 else (2 * num + den) / (2 * den)
      if 966367642 ≤ kq ∧ kq ≤ 1181116006 then
        let i := 4 * k.ch + k.gain
        let act := ((d.par.active.set (pkey P.sar_cal_ofs i) z).set (pkey P.sar_cal_k i) kq).set (pkey P.sar_cal_valid k.ch)
          ((maskOf 4 fun j => j == k.gain || bitN (d.pni P.sar_cal_valid k.ch) j : Nat) : Int)
        ({ d with par := { d.par with active := act } }.raise Ev.SAR_CAL_DONE (k.ch + 256 * k.gain)).complete k.cmd 0x0070 (stRes Sc.DONE)
      else d.calFails k Sc.CAL_RANGE

/-- The calibration's conversions are over, or its converter is disabled (R179 to R181). -/
def execSarCalComplete (t : Nat) (adc : Nat) (s : State) : Answer :=
  s.upd t (adc < 4) fun _ d =>
    match (d.sarSeq adc).cal with
    | none => d
    | some k =>
      let q := d.sarSeq adc
      if q.disabled then (d.calFails k Sc.DISABLED).nextCal adc q.calWait
      else if k.got < k.n then d
      else (d.calDone k).nextCal adc q.calWait

/-- SAR_CAL: the named sequencer is suspended and converts the channel sar.cal_n times (R179). R401 gives the command no
status for a converter that is still calibrating: a second one waits for the first (DEDUCED, log entry 128). -/
def execSarCal (t : Nat) (c : CmdRef) (adc ch gain : Nat) (full : Bool) (target : Int) (s : State) : Answer :=
  s.upd t true fun _ d => d.startCmd c 0x0070 fun d =>
    let k : SarCal := { cmd := c, ch := ch, gain := Nat.log2 gain, full := full, target := target, n := d.pn P.sar_cal_n }
    let q := d.sarSeq adc
    let failed := fun (st : Nat) => (d.raise Ev.SAR_CAL_FAIL (ch + 256 * k.gain), some (stRes st))
    if 3 < adc ∨ 15 < ch ∨ !([1, 2, 4, 8].contains gain) then (d, some (stRes Sc.BAD_ARG))
    else if q.disabled then failed Sc.DISABLED
    else if q.cal.isSome then (d.setSarSeq adc { q with calWait := q.calWait ++ [k] }, none)
    else if d.calLacks k then failed Sc.NO_ZERO
    else (d.nextCal adc [k], none)

end Sys2Proof.Machine
end

