-- ==== Sys2Proof/Machine/Boundary.lean ====
section
/-!
DEFINITION. Machine/Boundary.lean: overruns (R246 to R251), and what takes effect at the start of a modulation cycle: the
converter state, the power state, parameters and functions, the plan of the rings, the arms (R40, R76, R77, R233, R241,
R281, R345 to R348, R476, R482, R485, R486).
-/
namespace Sys2Proof.Machine

open Sys2Proof

/-! ## Overruns (R246 to R251) -/

def OverrunCause.any (c : OverrunCause) : Bool := c.crit || c.carry || c.lag || c.ref
/-- The causes as the event carries them: 1 CRIT, 2 CARRY, 4 LAG, 8 reference (DESIGN CHOICE, log entry 57). -/
def OverrunCause.bits (c : OverrunCause) : Nat := bit01 c.crit + 2 * bit01 c.carry + 4 * bit01 c.lag + 8 * bit01 c.ref

/-- A CARRY task of the last cycle's template is not complete: that cycle had not overrun. -/
def Dev.carryMissing (d : Dev) : Bool := !d.cyc.skip1 && d.cyc.asked1.any fun x => x.2 == .carry && !d.cyc.done1.contains x.1

/-- A LAG task of the cycle before the last is not complete. -/
def Dev.lagMissing (d : Dev) : Bool := !d.cyc.skip2 && d.cyc.asked2.any fun x => x.2 == .lag && !d.cyc.done2.contains x.1

/-- More than cyc.overrun_warn first overruns within 10 s: once for that window (R251). -/
def Dev.overrunRate (d : Dev) : Dev :=
  let l := within d.clk (ticksOfS 10) d.cyc.firsts
  let told : Bool := match d.cyc.rateAt with
    | some t => decide (d.clk < t + ticksOfS 10)
    | none => false
  let d := { d with cyc := { d.cyc with firsts := l } }
  if d.pn P.cyc_overrun_warn < l.length ∧ !told then
    ({ d with cyc := { d.cyc with rateAt := some d.clk } }).raise Ev.CYCLE_OVERRUN_RATE
  else d

/-- The band window of an arm lead in a skipped cycle (R247). -/
def Dev.bandSkip (d : Dev) (a : Nat) : Dev :=
  if !d.leadsArm a || d.cyc.done.contains (.band a) then d
  else ((if d.pv P.mod_band_mode = 0 then d else d.bandStep a none)).did (.band a)

/-- Every own cell gets the previous frame's states and offsets for the new target (R68). -/
def Dev.repeatAll (d : Dev) (tx : Tx) : Dev :=
  (List.range 48).foldl (fun (d : Dev) p => if d.cellAt p then d.repeatFrame tx p else d) d

/-- A first overrun (R68, R247). -/
def Dev.firstOverrun (d : Dev) (tx : Tx) (c : OverrunCause) : Dev :=
  let d := ({ d with cyc := { d.cyc with ovrCell := d.cyc.ovrCell + 1 } }).raise Ev.CYCLE_OVERRUN c.bits
  (d.arms.foldl Dev.bandSkip d.overrunRate).repeatAll tx

/-- A further consecutive overrun (R248, R249). -/
def Dev.nextOverrun (d : Dev) (tx : Tx) (c was : OverrunCause) : Dev :=
  let refs := c.ref && was.ref
  let other := c.crit || c.carry || c.lag || was.crit || was.carry || was.lag
  let d := if refs && !bitN d.mode.causes 5 then (d.raise Ev.CYCLE_REF_LOST).blockCause 5 else d
  if refs && !other then (d.arms.foldl Dev.bandSkip d).repeatAll tx
  else
    let d := if refs then d.arms.foldl (fun (d : Dev) a => d.setArm a { d.armSt a with blockAll := true }) d else d
    d.segmentFault

/-- Cycle k overruns. -/
def Dev.overrun (d : Dev) (tx : Tx) (c : OverrunCause) : Dev :=
  let n := d.cyc.cellOvr + 1
  let was := d.cyc.lastCause
  let d := { d with cyc := { d.cyc with cellOvr := n, cause := {}, lastCause := c, rep := true, judged := true } }
  if n = 1 then d.firstOverrun tx c else d.nextOverrun tx c was

/-- Cycle k is judged by the arms whose command deadline has passed (R246): it has not overrun once all of them are complete. -/
def Dev.judgeArms (d : Dev) (tx : Tx) (due : List Nat) : Dev :=
  let c : OverrunCause := { d.cyc.cause with crit := d.cyc.cause.crit || due.any fun a => !d.critDone a, ref := due.any d.refMissing }
  if c.any then d.overrun tx c
  else if due.length < d.arms.length then d
  else (({ d with cyc := { d.cyc with judged := true, cellOvr := 0, cause := {}, lastCause := {}, rep := false } }).clearCause 5).digestReady

/-- The judgement at the end of the cycle, when every deadline has passed. -/
def Dev.judge (d : Dev) (tx : Tx) : Dev := d.judgeArms tx d.arms

/-! ## From one cycle to the next -/

/-- The cycle in progress ends: its samples for the recorder, the reeds' counters (R256), its outputs kept for a DIGEST
that is still to run, and its tasks. -/
def Dev.closeCycle (d : Dev) (tx : Tx) : Dev :=
  if !d.cyc.run then d
  else
    let d := if d.cyc.judged || d.cyc.segFault then d else d.judge tx
    let d := (d.recCells d.cyc.rep).recArms d.cyc.rep
    let c := d.cyc
    let late := if c.done.contains .digest ∨ c.rep then none else some (c.k, d.digest)
    { d with cyc := { c with reeds := c.reeds.map (fun (r : Nat × Reed) => (r.1, { r.2 with bucket := if r.2.erred then r.2.bucket else r.2.bucket - 1, erred := false })),
                             lateDigest := late, asked1 := d.tmpl.map fun e => (e.task, e.cls), asked2 := c.asked1, sentRec := [], done := [], done1 := c.done, done2 := c.done1, skip1 := c.rep, skip2 := c.skip1 } }

/-- Cycle `k` starts. After a gap in the numbers no task of the cycles before it is judged. -/
def Dev.openCycle (d : Dev) (k : Nat) : Dev :=
  let c := d.cyc
  let gap : Bool := !c.run || c.k + 1 != k
  { d with cyc := { c with k := k, tk := d.clk, judged := false, skip1 := c.skip1 || gap, skip2 := c.skip2 || gap } }

/-! ## Converter state (R38, R42, R50, R74, R348, R476, R478, R479) -/

/-- The arm lead's band starts anew (R50). -/
def Dev.bandReset (d : Dev) (a : Nat) : Dev :=
  let st := d.armSt a
  let lo := d.pn P.mod_band_min_mv
  let hi := d.pn P.mod_band_max_mv
  d.setArm a { st with band := max lo (min hi (d.pn P.mod_band_mv)), sWin := 0, nWin := 0, bandSet := false, lateSpread := none,
                       bandMode := d.pn P.mod_band_mode, winLen := d.pn P.mod_band_win, winMin := lo, winMax := hi,
                       winLim := d.pn P.mod_spread_lim_mv }

/-- Every own cell passed through `f`. -/
def Dev.mapCells (d : Dev) (f : CellRec → CellRec) : Dev :=
  { d with cyc := { d.cyc with cells := d.cyc.cells.map fun (c : Nat × CellRec) => (c.1, f c.2) } }

/-- In DE-ENERGISED the role of time root returns to the configured pair (R348), cycle numbers start anew above 2^47
(R344), fibres too long are judged again (R74), and twins of one version leave their compatibility level (R448). -/
def Dev.enterDeEnergised (d : Dev) : Dev :=
  let d := (List.range 48).foldl (fun (d : Dev) p =>
    if (d.port p).fibreBad then (d.setPort p { d.port p with fibreBad := false }).checkDelays p else d) d
  let same : Bool := match d.twin.twinHealth with
    | some h => h.fwMajor == fieldN d.boot.version.toNat 0 8 && h.fwMinor == fieldN d.boot.version.toNat 8 8
    | none => false
  let d := if same then { d with boot := { d.boot with compatMinor := none } } else d
  let away := d.rootPair && d.holds && d.tim.known && !d.tim.isRoot && some d.tim.root != d.twinAddr
  let d := if away then (d.becomeRoot (d.tim.gen + 1) 0).raise Ev.TIME_ROOT_CHANGE else d
  d.wrapRestart

/-- The device takes a new converter state. -/
def Dev.enterConv (d : Dev) (v : Conv) : Dev :=
  let old := d.mode.conv
  if old == v || (old == .deEnergised && v == .faultBlocked) then d
  else
    let d := ({ d with mode := { d.mode with conv := v } }).emit (.irq 10)
    let d := if v == .deblocked then
        d.arms.foldl (fun (d : Dev) a =>
          let d := d.bandReset a
          d.setArm a { d.armSt a with dirLead := true }) d
      else d
    let d := d.mapCells fun c => { c with nonBlk := 0 }
    let d := if old == .faultBlocked then
        { d with cyc := { d.cyc with arms := d.cyc.arms.map fun (a : Nat × ArmState) => (a.1, { a.2 with blockAll := false }) } } else d
    let d := if v == .faultBlocked then { d with ctl := { d.ctl with block := false } } else d
    let d := if d.convLead then d.raise Ev.MODE_CONV_STATE (convCode v) else d
    if v == .deEnergised then d.enterDeEnergised else d

/-- The device takes a new test mode (R481). In SIMCELL each enabled port keeps to LISTEN. -/
def Dev.enterTest (d : Dev) (m : Test) : Dev :=
  if d.mode.test == m then d
  else
    let d := ({ d with mode := { d.mode with test := m, simLive := 0, sim := [], testDone := false } }).clearCause 11
    let d := if m == .simcell then
        (List.range 48).foldl (fun (d : Dev) p =>
          if d.cellAt p && (d.port p).stage != .off && !(d.port p).retired then
            (d.setPort p { d.port p with retrain := none, lastArr := none }).enterStage p .listen else d) d
      else d
    d.raise Ev.MODE_TEST (testCode m)

/-- One state unit at its apply cycle. -/
def Dev.applyUnit (d : Dev) (u : StateUnit) : Dev :=
  let d := match u.conv with
    | some v => d.enterConv v
    | none => d
  let d := match u.test with
    | some m => d.enterTest m
    | none => d
  match d.mode.trans with
  | some x => if x.agreed && x.apply == u.apply then { d with mode := { d.mode with trans := none, acks := [] } } else d
  | none => d

/-- The state units due in cycle k, in the order of their apply cycles; a transition that the lead has not judged is judged
first. -/
def Dev.applyUnits (d : Dev) : Dev :=
  let d := match d.mode.trans with
    | some x => if x.agreed && decide (x.apply ≤ d.cyc.k) then d.decideTransition else d
    | none => d
  let due := sortBy (fun (a b : StateUnit) => decide (a.apply ≤ b.apply)) (d.mode.units.filter fun u => decide (u.apply ≤ d.cyc.k))
  due.foldl Dev.applyUnit { d with mode := { d.mode with units := d.mode.units.filter fun u => decide (d.cyc.k < u.apply) } }

/-! ## Power state (Table 15-7, R484 to R487) -/

/-- The state of a domain in a power state; in IDLE PD8 shows that its controller is gated, PD2 and PD11 that a part of them goes on. -/
def domState (p : Power) (n : Nat) : DomState :=
  match p with
  | .run => .on
  | .idle => if n = 3 ∨ n = 4 ∨ n = 5 ∨ n = 8 then .gated else .on
  | .rest => if n = 6 ∨ n = 7 ∨ n = 10 then .off else if n = 0 ∨ n = 1 ∨ n = 9 then .on else .ret

/-- The domains in a power state. A domain that is switched off or held at retention is isolated; one that comes back is
released at nominal voltage. -/
def Dev.setDomains (d : Dev) (p : Power) : Dev :=
  (List.range 12).foldl (fun (d : Dev) n =>
    let x := d.mode.doms.get {} n
    let st := domState p n
    let cut := st == .off || st == .ret
    if x.st == st then d
    else { d with mode := { d.mode with doms := d.mode.doms.set n { x with st := st, clamps := cut || x.faulty, since := d.clk, powerUps := if x.st == .off then x.powerUps + 1 else x.powerUps } } }) d

/-- A power state is entered: EV_MODE_POWER. In IDLE the SAR converters go on with their monitor slots only, in REST with
none. -/
def Dev.enterPower (d : Dev) (p : Power) : Dev :=
  let d := d.setDomains p
  let d := if p != .run && d.mode.power == .run then { d with flt := { d.flt with srEntries := d.flt.srEntries + 1 } } else d
  let keep := fun (n : Nat) => p == .run || (p == .idle && (n == 3 || (n == 2 && (d.sarSeq 3).disabled)))
  let d := (List.range 4).foldl (fun (d : Dev) n => if keep n then d else d.setSarSeq n { d.sarSeq n with run := false, staged := [] }) d
  ({ d with mode := { d.mode with power := p } }).raise Ev.MODE_POWER (powerCode p)

/-- Entry into REST: the journal is committed, the ports and the fabric go off, the TBC stops (R275, R329, R486). -/
def Dev.enterRest (d : Dev) : Dev :=
  let d := if d.log.works && !d.log.buffer.isEmpty then d.commitAll d.log.buffer.length else d
  let ports := d.cp.ports.map fun (p : Nat × CellPort) => (p.1, { p.2 with stage := .off, live := false, retrain := none, ctrl := [] })
  let lanes := (List.range 8).map fun n =>
    let l := d.lane n
    (n, if l.stage == .retired then l else { l with stage := .detect, idle := true, fast := false, partner := none, lossAt := none })
  let d := { d with cp := { ports := ports }
                    fab := { d.fab with lanes := lanes, links := d.fab.links.map fun (l : Nat × Link) => (l.1, ({} : Link)) }
                    tim := { d.tim with running := false, ctValid := false, wallValid := false, wallHold := false, wallRef := false, wallFab := false, isRoot := false, src := none, cand := [], lastAcc := none, goodRun := 0 }
                    mode := { d.mode with restAt := if d.pn P.mode_rest_timer_s = 0 then none else some d.clk }
                    meas := { d.meas with mclk := 0 }
                    twin := if d.duplex then { d.twin with hbTx := false, role := .joining, stage := .sync, lastDrone := none, bootAt := none, claim := false } else d.twin }
  d.enterPower .rest

/-- MODE_POWER's conditions but the other commands in flight (R484). -/
def Dev.powerFree (d : Dev) : Bool :=
  d.mode.conv == .deEnergised && d.mode.test == .none && !d.acq.armed && d.acq.current.isNone && d.acq.closing.isEmpty

/-- The result of a command that has completed and whose completion is not yet written. -/
def Dev.amend (d : Dev) (c : CmdRef) (r : CmdResult) : Dev :=
  { d with host := { d.host with inflight := d.host.inflight.map fun f =>
      if f.gw = c.gw ∧ f.qp = c.qp ∧ f.tag = c.tag ∧ f.result.isSome then { f with result := some r } else f } }

/-- The entry that MODE_POWER chose; a change of higher rank at the same boundary undoes it (R475). -/
def Dev.powerEntry (d : Dev) : Dev :=
  match d.mode.entry with
  | none => d
  | some (p, c) =>
    let d := { d with mode := { d.mode with entry := none } }
    if !d.powerFree then d.amend c (stRes Sc.STATE)
    else
      let d := { d with cyc := { d.cyc with run := false } }
      match p with
      | .run => d
      | .idle => d.enterPower .idle
      | .rest => d.enterRest

/-! ## Time root (R345 to R348) -/

/-- What the time unit does at a boundary: a root that has seen a preferred one, or whose
twin is the holder now, gives up the role, the configured root
listens when it first takes up the role, and the cycles without a source are counted. -/
def Dev.timeBoundary (d : Dev) : Dev :=
  let u := d.tim
  let u := if u.yieldPending || (u.isRoot && !d.holds) then { u with isRoot := false, yieldPending := false } else u
  let start := d.rootPair && d.holds && !u.known && !u.isRoot && !u.listening && !u.listened
  let u := if start then { u with listening := true } else u
  let u := { u with lossCycles := if u.isRoot || u.src.isSome then 0 else u.lossCycles + 1,
                    claimCycles := if u.isRoot then 0 else u.claimCycles + 1 }
  ({ d with tim := u }).reselect

/-- The root role passes to the new holder of the root's pair (R318, R345). -/
def Dev.rootTakeover (d : Dev) : Dev :=
  let was := some d.tim.root == d.twinAddr || (d.twinAddr.isNone && d.rootPair && d.tim.rootM == 0)
  if d.tim.known && !d.tim.isRoot && was && d.tim.root != d.addr then
    (d.becomeRoot (d.tim.gen + 1) d.tim.rootM).raise Ev.TIME_ROOT_CHANGE
  else d

/-- The twin state at the boundary, with what a change of it brings (R318, R393). -/
def Dev.roleBoundary (d : Dev) (tx : Tx) : Dev :=
  let was := d.twin.role
  let d := d.twinBoundary tx
  let d := if d.twin.role == was then d else d.emit (.irq 10)
  if was == .standby && d.twin.role == .holder then d.rootTakeover else d

/-! ## Plan of the rings (R281) -/

/-- Plans whose apply cycle has come; an own port comes back to full width. -/
def Dev.applyPlans (d : Dev) : Dev :=
  let due := d.fab.plans.filter fun c => decide (c.apply ≤ d.cyc.k)
  if due.isEmpty then d
  else
    let n := d.nSeg d.firstArm
    let ring := due.foldl (fun (ws : Tab Nat) c => match ringLink n c with
      | some i => ws.set i c.width
      | none => ws) d.fab.ring
    let d' := { d with fab := { d.fab with ring := ring, plans := d.fab.plans.filter fun c => decide (d.cyc.k < c.apply) } }
    let d' := due.foldl (fun (d : Dev) c =>
      if c.seg = d.boot.segId ∧ c.width = 2 ∧ (d.link c.port).width = 1 ∧ d.widthOf c.port = 2 then
        d.setLink c.port { d.link c.port with width := 2 } else d) d'
    if due.any fun c => (ringLink n c).isSome then d'.raise Ev.FAB_PLAN_CHANGE else d'

/-! ## Parameters and functions (R233, R406, R482) -/

/-- A committed element takes effect in the cycle in progress: some only where a control or an outer cycle starts, those of
the identification with the next CTL_IDENT, those of the recorder with the next REC_ARM, those of a transition with the next CONV_STATE. -/
def Dev.takesNow (d : Dev) (key : Nat) : Bool :=
  let n := max 1 (d.pn P.ctl_n_ctl)
  match (paramDef? (key / 65536)).map (fun (x : ParamDef) => x.takes) with
  | some .control => d.cyc.k % n == 0
  | some .outer => d.cyc.k % (n * max 1 (d.pn P.ctl_n_out)) == 0
  | some .ident | some .arm => false
  | some .conv => d.mode.trans.isNone
  | _ => true

/-- The committed elements whose boundary has come. A written mod.band_mv restarts the band of an arm lead at its next window
(R49), and another warning level is judged at once (R46). A cell port that is enabled now starts bring-up, one that is not any more sends
fill only (R129); a fabric port brings up anew with another rate or enable (Table 08-12). -/
def Dev.takeParams (d : Dev) : Dev :=
  let had := d
  let go := d.par.waiting.filter fun v => d.takesNow v.1
  let has := fun (id : Nat) => go.any fun v => v.1 == pkey id 0
  let d := { d with par := { d.par with active := go.foldl (fun (t : Tab Int) v => t.set v.1 v.2) d.par.active,
                                        waiting := d.par.waiting.filter fun v => !d.takesNow v.1 } }
  let d := if has P.mod_band_mv then d.arms.foldl (fun (d : Dev) a => d.setArm a { d.armSt a with bandSet := true }) d else d
  let d := if has P.mod_cap_warn_pct then d.cyc.cells.foldl (fun (d : Dev) x => d.judgeCap x.1) d else d
  let d := [0, 1, 2, 3].foldl (fun (d : Dev) p =>
    if had.portEnabled p == d.portEnabled p && had.pni P.fab_rate p == d.pni P.fab_rate p then d else d.portSet p) d
  let d := if go.any (fun v => v.1 / 65536 / 4096 == 0xC) then d.queFollow else d
  if go.isEmpty then d
  else (List.range 48).foldl (fun (d : Dev) p =>
    if had.cellAt p == d.cellAt p then d else if d.cellAt p then d.startPort p else d.stopPort p) d

/-- The control engine is disabled: its commands in flight complete with DISABLED. -/
def Dev.ctlDisable (d : Dev) : Dev :=
  let mine := fun (w : CtlChange) => match w.body with
    | .source _ | .setpoint _ _ | .ident _ => true
    | _ => false
  let gone := d.ctl.waits.filter mine
  let d := { d with ctl := { d.ctl with waits := d.ctl.waits.filter (fun w => !mine w), lawRun := none } }
  let d := gone.foldl (fun (d : Dev) w => match w.cmd with
    | some c => d.complete c (ctlOpcode w.body) (stRes Sc.DISABLED)
    | none => d) d
  match d.ctl.ident with
  | some r =>
    let d := { d with ctl := { d.ctl with ident := none, idPulse := {} } }
    match r.cmd with
    | some c => d.complete c 0x0083 (stRes Sc.DISABLED)
    | none => d
  | none => d

/-- The SAR sequencers 0 to 2 are disabled: a calibration in flight completes with DISABLED. -/
def Dev.sarDisable (d : Dev) : Dev :=
  (List.range 3).foldl (fun (d : Dev) n => match (d.sarSeq n).cal with
    | some k =>
      let waits := (d.sarSeq n).calWait
      let d := d.setSarSeq n { d.sarSeq n with cal := none, calWait := [] }
      (k :: waits).foldl (fun (d : Dev) c => d.complete c.cmd 0x0070 (stRes Sc.DISABLED)) d
    | none => d) d

/-- Delay correction starts from its held estimates: what was to be judged before is not. -/
def Dev.dlyFresh (d : Dev) : Dev :=
  (List.range 48).foldl (fun (d : Dev) p => d.setChain (48 + p) { d.chain (48 + p) with edges := [] })
    (d.mapCells fun c => { c with trans := [] })

/-- mode.fn_enable takes effect (Table 15-5). -/
def Dev.takeFunctions (d : Dev) : Dev :=
  let old := d.mode.fnEnable
  let new := d.pn P.mode_fn_enable
  let off := fun (i : Nat) => bitN old i && !bitN new i
  let d := { d with mode := { d.mode with fnEnable := new } }
  let d := if off 0 then d.recDisable else d
  let d := if off 1 then d.sarDisable else d
  let d := if off 2 then d.mapCells fun c => { c with open_ := none, capQ := [], capLast := none } else d
  let d := if bitN old 3 != bitN new 3 then d.dlyFresh else d
  if off 4 then d.ctlDisable else d

/-! ## Snapshot (R239, R241) -/

/-- The snapshot of t_k: the outputs released at or before t_k − 0.5 µs. -/
def Dev.takeSnapshot (d : Dev) : Dev :=
  let seen := fun (s : Sample) => d.snapHolds s.rel
  let new : Tab Sample := d.meas.ch.filterMap fun (c : Nat × Chain) => (c.2.outs.find? seen).map fun s => (c.1, s)
  let hist : Tab (List Sample) := d.meas.ch.map fun (c : Nat × Chain) => (c.1, c.2.oks.filter seen)
  { d with cyc := { d.cyc with snapMeas := new, snapHist := hist } }

/-! ## Arms (R40, R42, R50, R76, R77, R104) -/

/-- The cells marked retiring in a block, as a mask. -/
def retiringMask (b : KeyBlock) : Nat := maskOf 48 fun p => (b.states.getD p {}).retiring

/-- The schedule held no BLK from `a` to `b`. -/
def noBlk (sched : List (Int × CellCmd)) (a b : Int) : Bool :=
  ((sched.find? fun x => decide (x.1 ≤ a)).any fun x => x.2 != .blk) && sched.all fun x => !(decide (a < x.1) && decide (x.1 < b)) || x.2 != .blk

/-- In DEBLOCKED a cell has spent the last full cycle in a state other than BLK (R42). -/
def Dev.countNonBlk (d : Dev) : Dev :=
  if d.mode.conv == .deblocked then
    d.mapCells fun c => if noBlk c.sched (d.tOf (d.cyc.k - 1)) (d.tOf d.cyc.k) then { c with nonBlk := c.nonBlk + 1 } else c
  else d

/-- The cells that newly carry retiring = 1 in the last cycle's blocks, in (segment, port) order. -/
def newRetiring (st : ArmState) : List (Nat × Nat) :=
  st.blocks.flatMap fun b => ((List.range 48).filter fun p => bitN (retiringMask b.2) p && !bitN (st.retiringLast.get 0 b.1) p).map fun p => (b.1, p)

/-- Own predictive retirements that are not the first of their cycle are cancelled (R77). -/
def Dev.cancelPredictive (d : Dev) (a : Nat) : Dev :=
  let new := newRetiring (d.armSt a)
  let later := ((new.drop 1).filter fun x => x.1 == d.segIn a && (d.cell x.2).predictive && (d.cell x.2).retiring.isSome)
  let d := if new.isEmpty then d else d.setArm a { d.armSt a with lastRetire := some (d.clk - d.tModTicks) }
  later.foldl (fun (d : Dev) x => d.setCell x.2
    { d.cell x.2 with retiring := none, predictive := false, notBefore := d.clk + ticksOfMs (d.pn P.mod_retire_gap_ms) }) d

/-- The cell meets a predictive criterion: its capacitance, its delay drift, or its health warning (R46, R72, R76). -/
def Dev.meetsPredictive (d : Dev) (p : Nat) : Bool :=
  let c := d.cell p
  f32lt (d.capPct p) (f32ofInt (d.pv P.mod_cap_retire_pct)) || c.health
    || (List.range 4).any fun cls => match d.par.dlyRef.find (4 * p + cls) with
      | some r => decide (ticksOfNs (d.pn P.mod_dly_drift_ns) < (cellDelay c d.gTicks cls - r).natAbs)
      | none => false

/-- The 10 s of R72 end for a cell in this cycle: the reference delays whose updates are complete are stored. -/
def Dev.dlyRefPoint (d : Dev) : Dev :=
  d.cyc.cells.foldl (fun (d : Dev) x => match x.2.firstCmd with
    | some t0 =>
      let at_ := t0 + (ticksOfS 10 : Nat)
      if d.tOf (d.cyc.k - 1) < at_ ∧ at_ ≤ d.tOf d.cyc.k then (List.range 4).foldl (fun (d : Dev) cls => d.storeDlyRef x.1 cls) d else d
    | none => d) d

/-- A predictive retirement may start in the arm (R76). -/
def Dev.predictiveOpen (d : Dev) (a : Nat) : Bool :=
  let st := d.armSt a
  (d.mode.conv == .blocked || d.mode.conv == .deblocked) && d.pv P.mod_retire_predictive == 1
    && st.blocks.all (fun b => retiringMask b.2 == 0)
    && (match st.lastRetire with
      | some t => decide (t + ticksOfMs (d.pn P.mod_retire_gap_ms) ≤ d.clk)
      | none => true)
    && decide (d.pn P.mod_n_min + d.pn P.mod_red_reserve + 1 ≤ st.nUse)

/-- The first own cell that meets a predictive criterion starts to retire; a cell that is not usable at the time waits (DESIGN
CHOICE, log entry 120). -/
def Dev.startPredictive (d : Dev) (a : Nat) : Dev :=
  if !d.predictiveOpen a || bitN d.mode.causes 0 then d
  else
    let st := d.armSt a
    let fbOk := decide (d.pn P.mod_n_fb_min + d.pn P.mod_red_reserve + 1 ≤ st.nFb)
    match (d.cellsOf a).find? fun p =>
        let c := d.cell p
        d.usableCell p && d.meetsPredictive p && decide (c.notBefore ≤ d.clk) && (!d.fbCell p || fbOk) with
    | some p => d.startRetire p true
    | none => d

/-- One arm at the start of cycle k. `late`: its BAND of the last cycle is still to run. -/
def Dev.armBoundary (d : Dev) (late : Bool) (a : Nat) : Dev :=
  let d := (d.cancelPredictive a).startPredictive a
  let st := d.armSt a
  let n := d.nSeg a
  let wants := if !d.duplex || !d.linkUp 2 then 0
    else if d.armRing then maskOf 16 fun j => (wanted d.fab.ring (d.knownWidths n) n (d.segIn a)).contains j
    else maskOf 16 fun j => decide (j < n) && ((decide (d.segIn a < j) && !d.linkUp 0) || (decide (j < d.segIn a) && !d.linkUp 1))
  let d := d.setArm a
    { st with retiringLast := st.blocks.map (fun b => (b.1, retiringMask b.2)), lateSpread := if late && st.gathered then some (armSpread st) else none,
              presence := if st.gathered then st.presence else st.fresh, blocks := [], fresh := 0, twinBlocks := [], gathered := false,
              wants := wants, twinWants := 0, uPrev := if d.cyc.rep then st.uPrev else st.uRef.getD st.uPrev, uRef := none, record := none, dir := st.dirNext, own := none }
  let d := if d.leadsArm a && (st.winLen == 0 || st.bandMode != d.pn P.mod_band_mode) then d.bandReset a else d
  if d.leadsArm a && d.pv P.mod_band_mode == 0 then d.setArm a { d.armSt a with band := d.pn P.mod_band_mv } else d

/-- The arms at the start of cycle k, with the WANT block that leaves at t_k + 0.25 µs (R285). -/
def Dev.armsBoundary (d : Dev) : Dev :=
  let late := fun (a : Nat) => !d.cyc.skip1 && d.leadsArm a && !d.cyc.done1.contains (.band a)
  let d := d.arms.foldl (fun (d : Dev) a => d.armBoundary (late a) a) d.dlyRefPoint
  let mask := fun (g : Nat) => let a := d.pni P.mod_pg_arm g; if a < 6 then (d.armSt a).wants else 0
  if d.duplex && d.fullTraffic then d.giveAt 2 (160 * d.cyc.tk + 25000) (.want ([0, 1, 2].map mask)) else d

/-- The cells aligned again count the cycles that pass without a step (R104). -/
def Dev.realignStep (d : Dev) : Dev :=
  { d with cp := { ports := d.cp.ports.map fun (x : Nat × CellPort) =>
      let r := match x.2.realign with
        | some n => if x.2.mustAlign then some 16 else if x.2.stepped then some 16 else if n ≤ 1 then none else some (n - 1)
        | none => none
      (x.1, { x.2 with realign := r, stepped := false }) } }

end Sys2Proof.Machine
end

