-- ==== Sys2Proof/Machine/Cycle.lean ====
section
/-!
DEFINITION. Machine/Cycle.lean: the modulation cycle (R239 to R259): its start and its command deadline, the digest, the
watchdog, the self-test rotation, and the safety block on the cell ports (R94, R437).
-/
namespace Sys2Proof.Machine

open Sys2Proof

/-! ## The start of a cycle (R233, R241) -/

/-- The overrun causes known at t_k (R246). -/
def Dev.lateTasks (d : Dev) : OverrunCause := { d.cyc.cause with carry := d.carryMissing, lag := d.lagMissing }

/-- What takes effect at the boundary, in the ranks of R475: safety state, converter state, power state. -/
def Dev.modesBoundary (d : Dev) (safety : Nat) : Dev :=
  let d := if safety = 0 then d.clearCause 0 else d.blockCause 0
  d.applyUnits.powerEntry

/-- The twin, time, fabric and DRAM at the boundary. -/
def Dev.unitsBoundary (d : Dev) (tx : Tx) : Dev := ((d.roleBoundary tx).timeBoundary.applyPlans).dramBoundary

/-- Parameters, functions, and the changes agreed with the twin. -/
def Dev.changesBoundary (d : Dev) : Dev := ((d.takeParams.takeFunctions.recBoundary).dropUnacked).applyCtl

/-- The chains, the sequencers, the snapshot and the arms. -/
def Dev.workBoundary (d : Dev) (k : Nat) : Dev := ((((d.measBoundary k).sarBoundary.takeSnapshot).countNonBlk).armsBoundary).realignStep

/-- The template, the pools, and the recorder's tasks on what is staged (R233, R241, R243). -/
def Dev.seqBoundary (d : Dev) : Dev :=
  let d := d.templateSwitch.formPools
  (d.tmpl.filter fun e => e.cls == .back).foldl (fun (d : Dev) e => d.place e.task) d

/-- Cycle k of a device in RUN. -/
def Dev.cycleStart (d : Dev) (tx : Tx) (safety k : Nat) : Dev :=
  let d := (d.closeCycle tx).openCycle k
  let late := d.lateTasks
  let d := d.modesBoundary safety
  if d.mode.power != .run then d
  else
    let d := (((d.unitsBoundary tx).changesBoundary).workBoundary k).seqBoundary
    let d := if (late.carry || late.lag) && !d.cyc.segFault then d.overrun tx { late with ref := d.arms.any d.refMissing } else d
    ({ d with cyc := { d.cyc with run := true } }).sendDrones

/-- MODULATION_CYCLE_START: cycle `k` starts at `t`. In IDLE and REST the sequencer stands still but for a power state that is
entered (R485, R486); after a fatal fault only the fallback generator's cycles are counted (R468). -/
def execModulationCycleStart (t : Nat) (k : Nat) (s : State) : Answer :=
  s.upd t (k < 2 ^ 48) fun s d =>
    if !d.boot.operational then d
    else if d.flt.stopped then { d with cyc := { d.cyc with k := k, tk := d.clk } }
    else if d.mode.power == .run then d.cycleStart s.tx s.safe.st k
    else ({ d with cyc := { d.cyc with k := k, tk := d.clk } }).powerEntry

/-! ## Tasks and deadlines -/

/-- COMMAND_DEADLINE: at t_cmd of an arm cycle k is judged by the arms whose deadline this is or was (R235, R246). -/
def execCommandDeadline (t : Nat) (s : State) : Answer :=
  s.upd t true fun s d =>
    let due := d.arms.filter fun a => d.sinceCycle (900000 + 68000 * d.nSeg a)
    if d.cyc.run && !d.cyc.judged && !d.cyc.segFault && !d.flt.stopped then d.judgeArms s.tx due else d

/-- DIGEST: the output digest, after every CRIT task (R236, R314); the one of the last cycle first when it is still to
run. -/
def execDigestTask (t : Nat) (s : State) : Answer :=
  s.upd t true fun _ d =>
    if !d.cyc.run then d
    else match d.cyc.lateDigest with
      | some (k, g) =>
        { d with twin := { d.twin with digests := d.twin.digests.set k g },
                 cyc := { d.cyc with lateDigest := none, done1 := .digest :: d.cyc.done1 } }.ran .digest
      | none =>
        if !d.listed .digest || d.cyc.done.contains .digest || !(d.arms.all d.critDone || d.cyc.judged) then d
        else ({ d with twin := { d.twin with digests := d.twin.digests.set d.cyc.k d.digest } }).did .digest

/-- Reed `reed` steals `n` ready tasks (R243, R244): as many as the rule gives, so that another number is no theft. Which reed runs a task
changes no result (R240). -/
def execReedSteal (t : Nat) (reed n : Nat) (s : State) : Answer :=
  s.upd t (reed < 64 && 1 ≤ n && n ≤ 8) fun _ d =>
    match d.stealPlan reed with
    | some (v, l) =>
      if l.length = n then
        (d.setReed reed { d.reed reed with steals := (d.reed reed).steals + BitVec.ofNat 32 n }).moveTasks v reed l
      else d
    | none => d

/-- A reed stopped in a push loses its item, which is a part of the task's output (R234, R257). -/
def Dev.dropPush (d : Dev) (n : Nat) : Dev :=
  d.que.q.foldl (fun (d : Dev) x =>
    let q := d.queue x.1
    if (q.stalled.find n).isNone && (q.partials.find n).isNone then d
    else d.setQueue x.1 { q with stalled := q.stalled.erase n, partials := q.partials.erase n } (d.que.free + q.partials.get 0 n)) d

/-- TASK_WATCHDOG: a task beyond four times its cost bound, its time at a full queue counted, is stopped, its output discarded, and it
is rerun on another reed (R234, R245, R256, R257). -/
def execTaskWatchdog (t : Nat) (reed : Nat) (x : Task) (s : State) : Answer :=
  s.upd t (reed < 64) fun _ d =>
    if d.reedOf x != some reed || d.cyc.done.contains x then d
    else (((d.dropPush reed).moveAway reed x).rerunFrom reed).reedError reed

/-! ## Self-test (R254, R255, R259, R316) -/

/-- A self-test of reed `n` ends: a failure retires the reed. -/
def Dev.testedReed (d : Dev) (n : Nat) (pass : Bool) : Dev :=
  let r := d.reed n
  if pass then d.setReed n { r with passes := r.passes + 1 }
  else
    let d := (d.setReed n { r with fails := r.fails + 1 }).raise Ev.CYCLE_SELFTEST_FAIL n
    d.retireReed n

/-- A failure counts for the health report and for the reasons against the device until a complete rotation passes. -/
def Dev.rotation (d : Dev) (n : Nat) (pass : Bool) : Dev :=
  let bad := d.cyc.rotFail || !pass
  let x := if pass then d.twin else { d.twin with selfFail := true, stFail := d.twin.stFail + 1 }
  let x := if n = 63 ∧ !bad then { x with selfFail := false, stPass := x.stPass + 1 } else x
  { d with twin := x, cyc := { d.cyc with rotFail := bad && n != 63 } }

/-- Every 10 ms the test of one reed ends and the next one starts; a retired reed's slot passes idle (R254). -/
def execSelftestSlot (t : Nat) (pass : Bool) (s : State) : Answer :=
  s.upd t true fun _ d =>
    let d := match d.cyc.testing with
      | some n => (({ d with cyc := { d.cyc with testing := none } }).testedReed n pass).rotation n pass
      | none => d
    if d.twin.role == .standby || d.pv P.cyc_selftest == 1 then
      let n := d.cyc.nextTest
      let idle := bitN d.par.retReeds n || d.reedDomainOff n
      let d := if idle && n == 63 then d.rotation 63 true else d
      { d with cyc := { d.cyc with testing := if idle then none else some n, nextTest := (n + 1) % 64 } }
    else d

/-- CYC_REED_RESTORE (R259). -/
def execCycReedRestore (t : Nat) (c : CmdRef) (reed : Nat) (pass : Bool) (s : State) : Answer :=
  s.upd t true fun _ d => d.runCmd c 0x0090 fun d =>
    if 64 ≤ reed then (d, stRes Sc.RANGE)
    else if d.mode.conv ≠ .deEnergised then (d, stRes Sc.STATE)
    else if !bitN d.par.retReeds reed then (d, stRes Sc.DONE)
    else
      let d := d.testedReed reed pass
      if pass then
        let d := d.setReed reed { d.reed reed with bucket := 0 }
        (({ d with par := { d.par with retReeds := maskOf 64 fun i => i != reed && bitN d.par.retReeds i } }).capacityCheck, stRes Sc.DONE)
      else (d, stRes Sc.SELFTEST_FAIL)

/-! ## The safety block on the ports -/

/-- After a block request a port ends its frame in serialisation and starts a CTRL NOP with sb = 1 (R94). -/
def execSafetyBlockFrameStart (t : Nat) (port : Nat) (s : State) : Answer :=
  s.upd t (port < 48) fun s d => if s.tx.sb then d.sendSafetyNop s.tx port else d

/-- The ports in RUN whose cell head does not report the safety block in force. -/
def Dev.notBlocked (d : Dev) : List Nat :=
  (List.range 48).filter fun p => (d.port p).stage == .run && !bitN ((d.port p).items.get 0 0) 2

/-- 10 µs after a block request channel A reads it back on every port in RUN: cause 0x04, and fill on a failing port
(R437). -/
def execBlockReadbackCheck (t : Nat) (s : State) : Answer :=
  s.safeUpd t true (fun t u =>
    let due : Bool := match u.reqAt with
      | some r => decide (r + ticksOfUs 10 ≤ t)
      | none => false
    let bad := s.dev.notBlocked
    if due && !bad.isEmpty then
      { u.fault 4 (bad.headD 0) with forcedFill := maskOf 48 fun p => bad.contains p || bitN u.forcedFill p }
    else u)
    (fun old n d => ((List.range 48).filter fun p => bitN n.forcedFill p && !bitN old.forcedFill p).foldl (fun d p => d.emit (.fill p)) d)

end Sys2Proof.Machine
end

