-- ==== Sys2Proof/Machine/Fabric.lean ====
section
/-!
DEFINITION. Machine/Fabric.lean: lanes, links and MESSAGE and BULK units (R262 to R300).
-/
namespace Sys2Proof.Machine

open Sys2Proof

/-- The identity is one that R18 to R20 allow on port `p` (R265). -/
def Dev.identityOk (d : Dev) (p : Nat) (x : Ident) : Bool :=
  let n := d.pni P.mode_arm_nseg d.firstArm
  let seg := d.boot.segId
  let a := d.firstArm
  let base := x.version == 1 && x.rate == (d.pni P.fab_rate p) && x.addr != d.addr
  if p = 2 then base && x.port == 2 && x.twinB != d.letterB && x.seg == seg && x.arm == a
  else if p = 3 then
    base && d.armRing && x.port == 3 && x.twinB == d.letterB &&
      ((seg + 1 == n && x.seg == 0 && x.arm == (a + 1) % 6) ||
        (seg == 0 && x.arm == (a + 5) % 6 && x.seg + 1 == d.pni P.mode_arm_nseg ((a + 5) % 6)))
  else if d.armRing then
    base && x.twinB == d.letterB && x.port == 1 - p && x.arm == a &&
      x.seg == (if p = 0 then (seg + 1) % n else (seg + n - 1) % n)
  else
    base && x.twinB == d.letterB && x.port == 1 - p && decide (x.seg < 16) &&
      (if p = 0 then x.seg == seg + 1 || x.seg == 0 else x.seg + 1 == seg || seg == 0)

/-- The identity of the partner, checked in HELLO (R265). -/
def execHelloReceive (t : Nat) (lane : Nat) (ident : Ident) (s : State) : Answer :=
  s.upd t (lane < 8) fun _ d =>
    let l := d.lane lane
    let d := d.goodBlocks lane 1
    if l.stage == .hello || (l.stage == .block && l.fast) then
      let ok := d.identityOk (lane / 2) ident
      let d := d.setLane lane { d.lane lane with partner := some ident, accepted := ok }
      if ok then d else d.raise Ev.FAB_MISWIRE lane
    else d

/-- A DELAY block is due on a lane (R274), `frac` of a tick of 2^−16 after `t`: in bring-up it goes at once, in UP in its
turn. -/
def execDelayBlockSend (t : Nat) (lane frac : Nat) (s : State) : Answer :=
  s.upd t (lane < 8) fun _ d =>
    let b : FabBlock := .delay ⟨0, none⟩
    if (d.lane lane).stage == .delay then d.sendNow lane (d.instant frac) b
    else if (d.lane lane).stage == .up && !(d.lane lane).idle then d.giveLane lane (d.instant frac) b
    else d

/-- 2^−16 tick as picoseconds. -/
def ps16 (x : Nat) : Nat := x * 1600 / 65536

/-- A DELAY block arrives with its marker at `tRx`: the one-way delay is half the round trip (R274). -/
def execDelayBlockReceive (t : Nat) (lane tRx : Nat) (m : DelayMsg) (s : State) : Answer :=
  s.upd t (lane < 8) fun _ d =>
    let d := d.goodBlocks lane 1
    let l := d.lane lane
    match l.lastTx, m.tLast with
    | some t1, some t2 =>
      let dly := ps16 (((tRx - t1) - (m.tTx - t2)) / 2)
      d.setLane lane { l with lastRx := some tRx, delay := dly,
                              results := if l.stage == .delay then (l.results ++ [dly]) else l.results }
    | _, _ => d.setLane lane { l with lastRx := some tRx }

/-- A LINK_STATE block is flooded on in its direction and scheduled; a change already known stops (R281). The routes that
the device computes from it are given (DESIGN CHOICE, log entry 42); tunnelled commands whose route is lost are given up (R389). -/
def execLinkStateReceive (t : Nat) (lane : Nat) (change : LinkChange) (routes : List Route) (s : State) : Answer :=
  s.upd t (lane < 4) fun _ d =>
    let d := d.goodBlocks lane 1
    if d.fab.known.find (4 * change.seg + change.port) = some change then d
    else
      let d := { d.learn change with fab := { (d.learn change).fab with routes := routes } }.tunnelLost
      let o := 1 - lane / 2
      d.give o (.linkState change)

/-- An ACK releases blocks; a NAK also sends the rest again (R277). -/
def execAckReceive (t : Nat) (port seq : Nat) (nak : Bool) (s : State) : Answer :=
  s.upd t (port < 4 && seq < 256) fun _ d =>
    let d := d.release port seq
    if nak then d.retransmit port else d

/-- 20 µs without an ACK (R277). -/
def execAckTimeout (t : Nat) (port : Nat) (s : State) : Answer :=
  s.upd t (port < 4) fun _ d =>
    let l := d.link port
    if !l.unacked.isEmpty && decide (l.sentAt + ticksOfUs 20 ≤ d.clk) then d.retransmit port else d

/-- The ACK of the blocks received (R277). -/
def Dev.ackNow (d : Dev) (port : Nat) (nak : Bool) : Dev :=
  let l := d.link port
  (d.setLink port { l with rxN := 0 }).give port (.ack ((l.rxSeq + 255) % 256) nak)

/-- The 2 µs ACK interval ends (R277). -/
def execAckSend (t : Nat) (port : Nat) (s : State) : Answer :=
  s.upd t (port < 4) fun _ d => if 0 < (d.link port).rxN then d.ackNow port false else d

/-- LANE_CMD RETRAIN from the partner (R273). -/
def execLaneCmdRetrain (t : Nat) (lane : Nat) (s : State) : Answer :=
  s.upd t (lane < 8) fun _ d => (d.goodBlocks lane 1).fastRetrain lane false

/-- LANE_CMD DOWN on the surviving lane: the transmitter leaves the other one (R291). -/
def execLaneCmdDown (t : Nat) (lane : Nat) (s : State) : Answer :=
  s.upd t (lane < 8) fun _ d =>
    let d := d.goodBlocks lane 1
    let o := otherLane lane
    (d.setLane o { d.lane o with off := true }).linkUpdate (lane / 2)

/-- LANE_CMD IDLE_REQ: the partner enters electrical idle (R275). -/
def execLaneCmdIdleReq (t : Nat) (lane : Nat) (s : State) : Answer :=
  s.upd t (lane < 8) fun _ d =>
    let d := d.goodBlocks lane 1
    d.setLane lane { d.lane lane with partnerIdle := true }

/-- A bad block (R290). -/
def execFabricBadBlock (t : Nat) (lane : Nat) (kind : BadBlock) (s : State) : Answer :=
  s.upd t (lane < 8) fun _ d => d.badBlock lane kind

/-- Clock recovery lost with energy present (R273). -/
def execLaneLockLoss (t : Nat) (lane : Nat) (s : State) : Answer :=
  s.upd t (lane < 8) fun _ d => if (d.lane lane).partnerIdle then d else d.fastRetrain lane true

/-- Signal energy: DETECT ends, or electrical idle (R272, R275). -/
def execLaneSignalDetect (t : Nat) (lane : Nat) (s : State) : Answer :=
  s.upd t (lane < 8) fun _ d =>
    let l := d.lane lane
    if l.stage == .retired || !d.portEnabled (lane / 2) then d
    else
      let woke := l.idle
      let l := { l with idle := false, partnerIdle := false,
                        stage := if l.stage == .detect then .cdr else l.stage,
                        began := if l.stage == .detect then d.clk else l.began }
      let d := d.setLane lane l
      if woke && l.stage == .up then d.emit (.training lane) else d

/-- The delay limit of a port, ps (R298). -/
def delayLimit (p : Nat) : Nat := if p = 3 then 275000 else 35000

/-- A lane reaches UP. -/
def Dev.laneUp (d : Dev) (n : Nat) : Dev :=
  let l := d.lane n
  let long := decide (delayLimit (n / 2) < l.delay)
  let d := (d.setLane n { l with stage := .up, fast := false, lossAt := none, off := false, badRun := 0, long := long,
                                 busyAt := d.clk }).raise Ev.FAB_LANE_UP n
  let d := if long && !l.fast then d.raise Ev.FAB_LINK_LONG n else d
  d.linkUpdate (n / 2)

/-- A stage meets its exit condition (Table 08-4); a fast retrain ends with its HELLO (R273). -/
def execLaneStageExit (t : Nat) (lane : Nat) (inverted : Bool) (s : State) : Answer :=
  s.upd t (lane < 8) fun _ d =>
    let l := d.lane lane
    let goes := fun (st : LaneStage) (l : Lane) => d.setLane lane { l with stage := st, began := d.clk }
    match l.stage with
    | .detect => if d.portEnabled (lane / 2) then goes .cdr l else d
    | .cdr => goes .equalise { l with inverted := inverted }
    | .equalise => goes .block l
    | .block => if l.fast then (if l.accepted then d.laneUp lane else d) else (goes .hello l).sendHello lane
    | .hello => if l.accepted then goes .delay { l with results := [] } else d
    | .delay =>
      let r := l.results.drop (l.results.length - 16)
      let hi := r.foldl max 0
      let lo := r.foldl min hi
      if 16 ≤ r.length ∧ hi - lo ≤ 500 then d.laneUp lane else d
    | .up | .retired => d

/-- Stage timeouts in µs (Table 08-4). -/
def LaneStage.timeout : LaneStage → Option Nat
  | .cdr => some 100
  | .equalise => some 2000
  | .block => some 50
  | .hello => some 200
  | .delay => some 400
  | .detect | .up | .retired => none

/-- A stage misses its timeout: the lane restarts at DETECT (R272). -/
def execLaneStageTimeout (t : Nat) (lane : Nat) (s : State) : Answer :=
  s.upd t (lane < 8) fun _ d =>
    let l := d.lane lane
    match l.stage.timeout with
    | some us => if !l.fast && decide (l.began + ticksOfUs us ≤ d.clk) then d.fullBringup lane else d
    | none => d

/-- A fast retrain is not done within 5 µs (R273). -/
def execFastRetrainTimeout (t : Nat) (lane : Nat) (s : State) : Answer :=
  s.upd t (lane < 8) fun _ d =>
    let l := d.lane lane
    if l.fast && l.stage != .up && decide (l.began + ticksOfUs 5 ≤ d.clk) then d.fullBringup lane else d

/-- A lane is not in UP 3 ms after its loss: a failed retrain; 8 within 10 s retire it (R273, R290). -/
def execRetrainFailTimeout (t : Nat) (lane : Nat) (s : State) : Answer :=
  s.upd t (lane < 8) fun _ d =>
    let l := d.lane lane
    match l.lossAt with
    | some t0 =>
      if l.stage != .up && l.stage != .retired && decide (t0 + ticksOfMs 3 ≤ d.clk) then
        let ts := d.clk :: l.failTimes.filter fun x => decide (d.clk < x + ticksOfS 10)
        let d := (d.setLane lane { l with lossAt := some d.clk, failTimes := ts, failTotal := l.failTotal + 1 }).raise Ev.FAB_RETRAIN_FAIL lane
        if 8 ≤ ts.length then d.retireLane lane else d
      else d
    | none => d

/-- No lane of an enabled port reaches UP within 3 ms of the start of bring-up (R293). -/
def execLinkBringupTimeout (t : Nat) (port : Nat) (s : State) : Answer :=
  s.upd t (port < 4) fun _ d =>
    let l := d.link port
    match l.started with
    | some t0 =>
      if d.portEnabled port && l.width == 0 && !l.reported && decide (t0 + ticksOfMs 3 ≤ d.clk) then
        ((d.setLink port { l with reported := true }).raise Ev.FAB_LINK_DOWN port).flood port 0
      else d
    | none => d

/-- In DE-ENERGISED, after fab.idle_us of elastic blocks only: IDLE_REQ, then electrical idle (R275). -/
def execLaneIdleTimer (t : Nat) (lane : Nat) (s : State) : Answer :=
  s.upd t (lane < 8) fun _ d =>
    let l := d.lane lane
    if d.mode.conv == .deEnergised && l.stage == .up && !l.idle && decide (l.busyAt + ticksOfUs (d.pn P.fab_idle_us) ≤ d.clk) then
      let d := d.sendNow lane (d.instant 0) (.laneCmd .idleReq)
      d.setLane lane { d.lane lane with idle := true }
    else d

/-- An elastic block: whole pad words are removed or repeated to bring the buffer back to 32 bits; a slip retrains the
lane (R269, R270). -/
def execElasticBlockReceive (t : Nat) (lane : Nat) (skip : Bool) (pads : Nat) (fill : Int) (slip : Bool) (s : State) : Answer :=
  s.upd t (lane < 8) fun _ d =>
    let l := d.lane lane
    let most : Int := if skip then 112 else 68
    let r := clampInt ((pads : Int) - most) pads (divRoundHalfAway (fill - 32) 16)
    let d := d.setLane lane { l with pads := l.pads + r, ebFill := (fill - 16 * r).toNat }
    if slip then (d.fastRetrain lane true).raise Ev.FAB_CLOCK_MISMATCH lane else d

/-- After 4,096 other blocks on a lane, IDLE blocks among them, a SKIP block is due; its turn comes outside the key window
(R269, R276). -/
def execSkipSend (t : Nat) (lane : Nat) (s : State) : Answer :=
  s.upd t (lane < 8) fun _ d =>
    let l := d.lane lane
    if l.stage == .up && !l.idle && decide (4096 ≤ d.sinceSkip lane) && !((d.link (lane / 2)).tx.any fun x => x.blk == .skip && x.lane == some lane)
    then d.giveLane lane (d.instant 0) .skip else d

/-- Line rate of a port, bit/s. -/
def Dev.lineRate (d : Dev) (p : Nat) : Nat := 12500000000 / 2 ^ d.pni P.fab_rate p

/-- The partner's frequency offset over the last second (R270). -/
def execFreqEstimate (t : Nat) (lane : Nat) (s : State) : Answer :=
  s.upd t (lane < 8) fun _ d =>
    let l := d.lane lane
    let f := l.pads * 16 * 10000000 / (d.lineRate (lane / 2) : Int)
    let d := d.setLane lane { l with pads := 0, freq := f }
    if 3000 < f.natAbs then (d.fastRetrain lane true).raise Ev.FAB_CLOCK_MISMATCH lane
    else if 2000 < f.natAbs then d.raise Ev.FAB_FREQ_WARN lane
    else d

/-- A unit for this device is delivered once (R277). -/
def Dev.deliver (d : Dev) (u : FabUnit) : Dev :=
  if d.fab.delivered.contains (u.src, u.id) then d
  else ({ d with fab := { d.fab with delivered := (u.src, u.id) :: d.fab.delivered } }).emit (.unit u)

/-- A MESSAGE or BULK unit arrives in its blocks from sequence number `seq` on: in order it is acknowledged, then
delivered or passed on with its hop limit decremented; out of order it is answered by a NAK (R271, R277, R278). -/
def execMessageUnitReceive (t : Nat) (lane seq : Nat) (u : FabUnit) (s : State) : Answer :=
  s.upd t (lane < 8 && seq < 256 && 1 ≤ u.len && u.len ≤ (if u.bulk then 4194304 else 65536) && u.hops < 256) fun _ d =>
    let p := lane / 2
    let n := ceilDiv u.len 64
    if 3 < u.kind then d.badBlock lane .reservedKind
    else
      let d := d.goodBlocks lane n
      let l := d.link p
      if l.rxSeq ≠ seq then d.ackNow p (decide ((seq + 256 - l.rxSeq) % 256 < 128))
      else
        let d := d.setLink p { l with rxSeq := (seq + n) % 256, rxN := l.rxN + n }
        let d := if 32 ≤ l.rxN + n then d.ackNow p false else d
        let on := { u with hops := u.hops - 1 }
        match u.dest with
        | some a => if a = d.addr then d.deliver u else if 1 < u.hops then d.forward a on else d
        | none =>
          if u.src = d.addr then d
          else
            let d := d.deliver u
            if 1 < u.hops then d.castOn on ([0, 1, 3].filter (· != p)) else d

/-- FAB_LANE_RESTORE: a full bring-up of a retired lane, in DE-ENERGISED only (R290). -/
def execFabLaneRestore (t : Nat) (c : CmdRef) (lane : Nat) (s : State) : Answer :=
  s.upd t true fun _ d => d.runCmd c 0x00A0 fun d =>
    if 8 ≤ lane then (d, stRes Sc.BAD_ARG)
    else if d.mode.conv ≠ .deEnergised ∨ (d.lane lane).stage ≠ .retired then (d, stRes Sc.STATE)
    else
      let l := d.lane lane
      let d := { d with par := { d.par with retLanes := maskOf 8 fun i => i != lane && bitN d.par.retLanes i } }
      ((d.setLane lane { l with bucket := 0, failTimes := [] }).fullBringup lane, stRes Sc.DONE)

end Sys2Proof.Machine
end

