-- ==== Sys2Proof/Machine/Modes.lean ====
section
/-!
DEFINITION. Machine/Modes.lean: the commands of chapter 15: state units, acknowledgements and block requests (R476 to
R481), power states and wake sources (R484 to R487), the external regulators (R490) and the domains (R491).
-/
namespace Sys2Proof.Machine

open Sys2Proof

/-! ## Units of the converter state (R476 to R479) -/

/-- A state unit as the device keeps it; none when it names no state of Table 15-2 or test mode. -/
def stateUnitOf (m : StateMsg) : Option StateUnit :=
  match m.conv, m.test with
  | some v, none => (convOf v).map fun c => ⟨some c, none, m.apply, m.cause⟩
  | none, some v => (testOf v).map fun x => ⟨none, some x, m.apply, m.cause⟩
  | _, _ => none

/-- A lead twin learns of the transition that the other twin has announced (Table 15-6). -/
def Dev.followTransition (d : Dev) (u : StateUnit) : Dev :=
  let x : Transition := ⟨u.conv.getD d.mode.conv, u.test, u.apply, true, false, false, none, u.cause⟩
  if d.convLead && d.mode.trans.isNone then { d with mode := { d.mode with acks := [], trans := some x } } else d

/-- STATE_UNIT_RECEIVE (R476): kept for its apply cycle, or taken at once when that has begun, and acknowledged. -/
def execStateUnitReceive (t : Nat) (m : StateMsg) (s : State) : Answer :=
  s.upd t (stateMsgOk m) fun _ d =>
    match stateUnitOf m with
    | none => d
    | some u =>
      let d := d.takeUnit u
      let d := if u.conv == some .faultBlocked then d else (d.followTransition u).acknowledge u.apply
      if u.apply ≤ d.cyc.k && d.cyc.run then d.applyUnits else d

/-- ACKNOWLEDGEMENT_RECEIVE: a twin of the converter lead keeps it (R478). -/
def execAcknowledgementReceive (t : Nat) (a : AckMsg) (s : State) : Answer :=
  s.upd t true fun _ d => if d.convLead then d.keepAck a else d

/-- CANCEL_UNIT_RECEIVE: the transition of that apply cycle does not take place. -/
def execCancelUnitReceive (t : Nat) (apply cause : Nat) (s : State) : Answer :=
  s.upd t (cause < 65536) fun _ d =>
    let d := d.dropUnits apply
    match d.mode.trans with
    | some x => if x.agreed && x.apply == apply then { d with mode := { d.mode with trans := none, acks := [] } } else d
    | none => d

/-- BLOCK_REQUEST_RECEIVE at a twin of the converter lead (R478, R479). -/
def execBlockRequestReceive (t : Nat) (m : BlockMsg) (s : State) : Answer :=
  s.upd t (m.bit < 13) fun _ d => if d.convLead then d.requestArrives m else d

/-- The block requests of one cause, to both twins of the converter lead. -/
def Dev.requestBlock (d : Dev) (bit : Nat) : Dev :=
  let m : BlockMsg := ⟨d.addr, bit, d.mode.causeAt.get 0 bit⟩
  let d := d.raise Ev.MODE_BLOCK_REQ bit
  let d := d.leadAddrs.foldl (fun (d : Dev) a => d.eventUnit (some a) (.blockReq m)) d
  if d.convLead then d.requestArrives m else d

/-- BLOCK_REQUEST_SEND: each cause in force but 11 and 12 is requested, and again every 1 ms (R479). -/
def execBlockRequestSend (t : Nat) (s : State) : Answer :=
  s.upd t true fun _ d =>
    ((List.range 11).filter (bitN d.mode.causes)).foldl Dev.requestBlock d

/-- CONV_STATE_DECIDE: at t_ca − 5 µs the lead judges (R478). -/
def execConvStateDecide (t : Nat) (s : State) : Answer :=
  s.upd t true fun _ d => if d.convLead then d.decideTransition else d

/-- A transition or test mode enters step 1 of R478: the twin agrees first, or the device goes on alone. -/
def Dev.startTransition (d : Dev) (x : Transition) (b : CtlBody) (c : CmdRef) : Dev :=
  let d := { d with mode := { d.mode with trans := some x, acks := [] } }
  if d.alone then d.transitionAgreed else d.agreeCtl b (some c)

/-- CONV_STATE (R477, R478): DE_ENERGISE 0, CHARGE 1, BLOCK 2, DEBLOCK 3. A device whose committed set is not correct stays
in DE-ENERGISED (R445). -/
def execConvState (t : Nat) (c : CmdRef) (target : Nat) (s : State) : Answer :=
  s.upd t true fun _ d => d.startCmd c 0x0010 fun d =>
    match (if target < 4 then convOf target else none) with
    | none => (d, some (stRes Sc.BAD_ARG))
    | some v =>
      if !d.convLead then (d, some (stRes Sc.STATE))
      else if d.mode.trans.isSome then (d, some (stRes Sc.BUSY))
      else if !transitionAllowed d.mode.conv v || (d.mode.conv == .deEnergised && (d.boot.cfgBad || d.pn P.mod_n_min == 0)) then
        (d, some (stRes Sc.STATE))
      else ((d.takeClass .conv).startTransition ⟨v, none, 0, false, false, true, some c, 0⟩ (.conv target) c, none)

/-- MODE_TEST (R481), in DE-ENERGISED only. -/
def execModeTest (t : Nat) (c : CmdRef) (m : Nat) (s : State) : Answer :=
  s.upd t true fun _ d => d.startCmd c 0x0012 fun d =>
    match testOf m with
    | none => (d, some (stRes Sc.BAD_ARG))
    | some x =>
      if !d.convLead || d.mode.conv != .deEnergised || d.mode.trans.isSome then (d, some (stRes Sc.STATE))
      else (d.startTransition ⟨.deEnergised, some x, 0, false, false, true, some c, 0⟩ (.test m) c, none)

/-- SELFTEST_COMPLETE (R481): the pass mask in the order of the list of tests. -/
def execSelftestComplete (t : Nat) (passMask : Nat) (s : State) : Answer :=
  s.upd t (passMask < 32) fun _ d =>
    if d.mode.test == .selftest && !d.mode.testDone then
      ({ d with mode := { d.mode with testDone := true, testPass := passMask } }).raise Ev.MODE_SELFTEST_DONE passMask
    else d

/-! ## Power states (R484 to R487) -/

/-- The deepest state not deeper than `p` whose wake latency does not exceed `latency` µs; a gateway goes no deeper than
IDLE (R486, Table 15-6). -/
def Dev.deepest (d : Dev) (p : Power) (latency : Nat) : Power :=
  match p with
  | .run => .run
  | .idle => if latency < 2 then .run else .idle
  | .rest => if latency < 2 then .run else if latency < 400 ∨ d.pn P.sys_gateway = 1 then .idle else .rest

/-- The power state that MODE_POWER chose is entered: at the next boundary, or by the wake sequence. -/
def Dev.powerChosen (d : Dev) (p : Power) (c : CmdRef) : Dev :=
  let d := { d with mode := { d.mode with entry := if p == .run || p == d.mode.power then none else some (p, c) } }
  if p == .run then d.wakeBy .modePower else d

/-- MODE_POWER (R484, R486). -/
def execModePower (t : Nat) (c : CmdRef) (p latency : Nat) (s : State) : Answer :=
  s.upd t true fun _ d => d.runCmd c 0x0011 fun d =>
    match [Power.run, .idle, .rest][p]? with
    | none => (d, stRes Sc.BAD_ARG)
    | some want =>
      let others := d.host.inflight.any fun f => !(f.gw == c.gw && f.qp == c.qp && f.tag == c.tag)
      if want != .run && !d.powerFree then (d, stRes Sc.STATE)
      else if want != .run && others then (d, stRes Sc.BUSY)
      else
        let dest := d.deepest want latency
        (d.powerChosen dest c, ⟨Sc.DONE, bytesLE 4 (powerCode dest), []⟩)

/-- WAKE_SOURCE (R487). -/
def execWakeSource (t : Nat) (src : WakeSource) (s : State) : Answer := s.upd t true fun _ d => d.wakeBy src

/-- A write of 1 to SYS.WAKE. -/
def execWakeWrite (t : Nat) (s : State) : Answer := s.upd t true fun _ d => d.wakeBy .sysWake

/-- mode.rest_timer_s has passed in REST. -/
def execRestTimerExpiry (t : Nat) (s : State) : Answer :=
  s.upd t true fun _ d =>
    match d.mode.restAt with
    | some t0 => if t0 + ticksOfS (d.pn P.mode_rest_timer_s) ≤ d.clk then d.wakeBy .restTimer else d
    | none => d

/-- The wake sequence ends: from REST in IDLE, with the TBC at 0 again, lanes and ports in bring-up and no control time; from
IDLE in RUN, where the sequencer starts at the next boundary (R487, Tables 15-8 and 15-9). -/
def Dev.woken (d : Dev) : Dev :=
  match d.mode.waking with
  | none => d
  | some p =>
    let d := { d with mode := { d.mode with waking := none, restAt := none, entry := none } }
    if d.mode.power == .rest then
      let d := { d with tim := { d.tim with running := true, tbc0 := d.clk } }
      (d.enterPower .idle).startPorts
    else d.enterPower p

def execWakeComplete (t : Nat) (s : State) : Answer := s.upd t true fun _ d => d.woken

/-! ## External regulators (R490) -/

/-- Fault bits of STATUS_WORD: VOUT, IOUT, INPUT, OFF and TEMPERATURE with the single faults that they sum up (PRESUMED, log entry
68). -/
def pmbFault (status : Nat) : Bool := [15, 14, 13, 6, 5, 4, 3, 2].any (bitN status)
/-- Every other bit but BUSY is a warning. -/
def pmbWarn (status : Nat) : Bool := [12, 11, 10, 9, 8, 1, 0].any (bitN status)

def Dev.regulator (d : Dev) (n : Nat) : Regulator := d.mode.regs.get {} n
def Dev.setRegulator (d : Dev) (n : Nat) (r : Regulator) : Dev := { d with mode := { d.mode with regs := d.mode.regs.set n r } }

/-- Block cause 9 holds while a critical regulator has a fault or is lost. -/
def Dev.regulatorCause (d : Dev) : Dev :=
  let bad := (List.range 8).any fun n => bitN (d.pn P.mode_pmb_crit) n && ((d.regulator n).faulted || (d.regulator n).lost)
  if bad then d.blockCause 9 else d.clearCause 9

/-- A poll without a valid answer; the third in a row is a loss. -/
def Dev.pollMissed (d : Dev) (n : Nat) : Dev :=
  let r := d.regulator n
  let lost := decide (3 ≤ r.missedRun + 1)
  let d := d.setRegulator n { r with answering := false, missedRun := r.missedRun + 1, missed := r.missed + 1, lost := r.lost || lost }
  if lost && !r.lost then d.raise Ev.MODE_PMB_LOST n else d

/-- A valid answer. An event marks each new warning and each new fault; a fault that has been reported is cleared at the
regulator. -/
def Dev.pollAnswered (d : Dev) (n : Nat) (a : PmbRead) : Dev :=
  let r := d.regulator n
  let (w, f) := (pmbWarn a.status, pmbFault a.status)
  let new := f && !r.faulted
  let d := d.setRegulator n
    { r with answering := true, missedRun := 0, lost := false, status := a.status, vin := a.vin, vout := a.vout, iout := a.iout,
             temp := a.temp, faulted := f, warned := w, faults := if new then r.faults + 1 else r.faults }
  let d := if w && !r.warned then d.raise Ev.MODE_PMB_WARN (n + 256 * a.status) else d
  if new then (d.raise Ev.MODE_PMB_FAULT (n + 256 * a.status)).emit (.pmbClear n) else d

/-- PMBUS_POLL of regulator `reg`, when an address is configured for it. -/
def execPmbusPoll (t : Nat) (reg : Nat) (answer : Option PmbRead) (s : State) : Answer :=
  s.upd t (reg < 8) fun _ d =>
    if d.pni P.mode_pmb_addr reg = 0 then d
    else match answer with
      | none => (d.pollMissed reg).regulatorCause
      | some a => (d.pollAnswered reg a).regulatorCause

/-! ## Domains (R32, R258, R491) -/

def Dev.domain (d : Dev) (n : Nat) : Domain := d.mode.doms.get {} n
def Dev.setDomain (d : Dev) (n : Nat) (x : Domain) : Dev := { d with mode := { d.mode with doms := d.mode.doms.set n x } }

/-- The critical roles on the reeds of a domain exceed the reserves outside it (R241, R258). -/
def Dev.poolLost (d : Dev) (dom : Nat) : Bool :=
  let on := fun (n : Nat) => 3 + n / 32 == dom
  let lost := d.cyc.crit.filter on
  let spare := d.cyc.reserve.filter fun n => !on n
  d.cyc.run && decide (spare.length < lost.length)

/-- The consequence of Table 15-11 in the device; PD1's is the safety unit's. -/
def Dev.domainLost (d : Dev) (dom : Nat) : Dev :=
  let out := fun (d : Dev) => d.setDomain dom { d.domain dom with faulty := true }
  match dom with
  | 2 => (out d).fatal 7 dom
  | 3 | 4 =>
    let lost := d.poolLost dom
    let d := ((List.range 32).foldl (fun (d : Dev) i => d.reedGone (32 * (dom - 3) + i)) (out d)).capacityCheck
    if lost then d.raise Ev.CYCLE_POOL_REBUILT else d
  | 5 | 6 | 7 | 11 => (out d).segmentFault.blockCause 10
  | 8 => out (if d.acq.armed || d.acq.current.isSome || !d.acq.closing.isEmpty then d.recDisable else d)
  | 9 => out ((List.range 4).foldl (fun (d : Dev) k => d.closeSession k sessClosed) d.pcieReset)
  | 10 =>
    let d := (List.range 4).foldl (fun (d : Dev) n => d.setSarSeq n { d.sarSeq n with run := false, staged := [] }) (out d)
    (List.range 8).foldl (fun (d : Dev) i =>
      if (d.chain (96 + i)).on then
        let d := d.chainOff (96 + i)
        (d.setChain (96 + i) { d.chain (96 + i) with perm := true }).raise Ev.MEAS_STREAM_PERM (96 + i)
      else d) d
  | _ => out d

/-- DOMAIN_FAULT: the difference of an ON domain to PD0, in mV. Up to 60 mV has no effect but on the registers. -/
def execDomainFault (t : Nat) (dom : Nat) (diff : Int) (s : State) : Answer :=
  s.updAll t (1 ≤ dom && dom < 12) fun s =>
    let x := s.dev.domain dom
    if x.st != .on then s
    else
      let high := if x.maxDiff.natAbs < diff.natAbs then diff else x.maxDiff
      let d := s.dev.setDomain dom { x with diff := diff, maxDiff := high }
      if diff.natAbs ≤ 60 || x.clamps then { s with dev := d }
      else
        let d := (d.setDomain dom { d.domain dom with clamps := true, engaged := x.engaged + 1 }).raise Ev.DOMAIN_VDIFF dom
        if dom = 1 then
          let n := (s.safe.fault 0x0C 0).settle s.safe s.dev.clk
          { s with safe := if s.safe.powered then n else s.safe,
                   dev := if s.safe.powered then (d.setDomain dom { d.domain dom with faulty := true }).safeEvents s.safe n else d }
        else { s with dev := d.domainLost dom }

/-- DOMAIN_RESTORE: the clamps release, and an "automatic" domain returns to service. -/
def execDomainRestore (t : Nat) (dom : Nat) (s : State) : Answer :=
  s.upd t (1 ≤ dom && dom < 12) fun _ d =>
    let x := d.domain dom
    if !x.clamps || x.st != .on then d
    else
      let auto : Bool := [3, 4, 8, 9, 10].contains dom
      let d := (d.setDomain dom { x with clamps := false, diff := 0, faulty := x.faulty && !auto }).raise Ev.MODE_DOMAIN_RESTORED dom
      if dom = 3 ∨ dom = 4 then d.capacityCheck
      else if dom = 10 then (List.range 4).foldl (fun (d : Dev) n => if d.pni P.sar_seq_mode n = 0 || n = 3 then d.startPass n else d) d
      else d

end Sys2Proof.Machine
end

