-- ==== Sys2Proof/Machine/Regs.lean ====
section
/-!
DEFINITION. Machine/Regs.lean: BAR0 as the host reads it (chapter 16): the map of Table 16-1 and the value of every
register of Tables 16-3 to 16-10, 12-4, 07-6 and 08-9. A register whose content the manual names without saying what
brings it about (a voltage, an eye height, a training result) has no value here: a read of it draws an open one
(DESIGN CHOICE, log entry 70).
-/
namespace Sys2Proof.Machine

open Sys2Proof

/-- A register's value; none is an open one. -/
abbrev Reg := Option Word

def regN (n : Nat) : Reg := some (BitVec.ofNat 32 n)
def regI (n : Int) : Reg := some (BitVec.ofInt 32 n)
/-- Half `i` of a value of more than 32 bits. -/
def regHalf (n i : Nat) : Reg := regN ((n >>> (32 * i)) % 2 ^ 32)
/-- Register `i` of a byte string, byte 0 lowest. -/
def regOf (bs : List Byte) (i : Nat) : Reg := regN (natLE ((bs.drop (4 * i)).take 4))
/-- An address that no register occupies reads 0 (R494). -/
def regNone : Reg := regN 0

/-! ## SYS (Tables 16-3 and 16-4) -/

/-- The roles held: arm lead, converter lead, time root, gateway. -/
def Dev.roles (d : Dev) : Nat :=
  if d.par.loaded then
    bit01 (d.arms.any d.leadsArm) + 2 * bit01 d.convLead + 4 * bit01 d.tim.isRoot + 8 * bit01 (d.pv P.sys_gateway == 1)
  else 0

/-- SYS.STATUS. -/
def State.sysStatus (s : State) : Nat :=
  let d := s.dev
  bit01 d.boot.operational + 2 * bit01 d.boot.halted + 4 * powerCode d.mode.power + 16 * convCode d.mode.conv + 2 ^ 7 * d.twinCode
    + 2 ^ 9 * s.safe.st + 2 ^ 11 * d.sec.alarm + 2 ^ 13 * bit01 d.tim.ctValid + 2 ^ 14 * bit01 d.tim.wallValid
    + 2 ^ 15 * testCode d.mode.test + 2 ^ 17 * bit01 d.boot.pwrfail + 2 ^ 18 * bit01 d.log.works + 2 ^ 19 * d.roles

def Dev.identReg (d : Dev) : Nat :=
  (if d.par.loaded then d.addr else 0) + 2 ^ 12 * bit01 d.boot.twinSel + 2 ^ 13 * d.boot.segId + 2 ^ 17 * d.boot.source
    + 2 ^ 19 * bit01 d.par.loaded

def Dev.lanesReg (d : Dev) : Nat :=
  (maskOf 8 fun n => (d.lane n).stage == .up) + 2 ^ 8 * (maskOf 8 fun n => (d.lane n).stage == .retired)
    + 2 ^ 16 * maskOf 4 fun p => (d.link p).width == 1

/-- The general registers. -/
def State.sysReg (s : State) (o : Nat) : Reg :=
  let d := s.dev
  match o with
  | 0x000 => regN 0x21489600
  | 0x004 => some (if d.boot.operational then d.boot.version else 0)
  | 0x008 => regN d.identReg
  | 0x00C => regN (if d.boot.started then s.sysStatus else 0)
  | 0x010 => regN (bit01 d.par.lock + 2 * bit01 (d.pv P.sys_lock_at_boot == 1))
  | 0x018 => regN (d.boot.source + 4 * d.boot.slot + 8 * bit01 d.boot.fallback)
  | 0x01C => some d.boot.count
  | 0x020 => regN (if d.par.loaded then d.par.committed.gen else 0)
  | 0x024 => regN (d.par.pending.length % 65536 + 65536 * bit01 d.commitRuns)
  | 0x028 => regN (d.flt.cause + 256 * (d.flt.times.filter fun x => decide (d.clk < x + ticksOfS 600)).length)
  | 0x02C => regN d.host.evtFilter
  | 0x030 => some d.host.hostTag
  | 0x034 => regHalf d.portsInRun 0
  | 0x038 => regHalf d.portsInRun 1
  | 0x03C => regHalf d.par.retCells 0
  | 0x040 => regHalf d.par.retCells 1
  | 0x044 => regN (d.goodReeds + 256 * popcount 64 d.par.retReeds + 65536 * (d.rNeed % 256))
  | 0x048 => regN d.lanesReg
  | 0x04C => regN (d.cyc.ovrCell.toNat + 65536 * d.cyc.ovrLaw.toNat)
  | 0x050 => regN d.log.commitSeq
  | 0x054 => regN (min 0xFFFFFFFF ((d.clk - d.log.lastCommit) / 625))
  | 0x058 => regHalf s.otp.serial.toNat 0
  | 0x05C => regHalf s.otp.serial.toNat 1
  | _ =>
    if 0x060 ≤ o ∧ o < 0x080 then some (d.host.scratch.get 0 ((o - 0x060) / 4))
    else if 0x080 ≤ o ∧ o < 0x100 then some (d.log.cnt.get 0 ((o - 0x080) / 4))
    else regNone

/-- A domain's registers; its voltage and its current are open. -/
def Dev.domReg (d : Dev) (n i : Nat) : Reg :=
  let x := d.domain n
  match i with
  | 0 => regN ((match x.st with
      | .on => 0
      | .gated => 1
      | .ret => 2
      | .off => 3) + 8 * bit01 x.clamps + 16 * bit01 x.faulty)
  | 2 => regI x.diff
  | 3 => regI x.maxDiff
  | 4 => some x.engaged
  | 5 => some x.powerUps
  | 6 => regN ((d.clk - x.since) / 625000)
  | _ => none

/-- A regulator's registers (DESIGN CHOICE, log entry 70 for the bits of the first). -/
def Dev.pmbReg (d : Dev) (n i : Nat) : Reg :=
  let r := d.regulator n
  match i with
  | 0 => regN (d.pni P.mode_pmb_addr n + 128 * bit01 r.answering + 256 * bit01 (bitN (d.pn P.mode_pmb_crit) n))
  | 1 => regN r.status
  | 2 => regN r.vin
  | 3 => regN r.vout
  | 4 => regN r.iout
  | 5 => regN r.temp
  | 6 => some r.missed
  | 7 => some r.faults
  | _ => regNone

/-- The monitor results; the two frequency measurements are open. -/
def Dev.monReg (d : Dev) (i : Nat) : Reg :=
  if i < 8 then regI (d.sarChan (16 + i)).last
  else if i < 16 then regI (d.sar.monMax.get 0 (i - 8))
  else if i < 24 then regI (d.sar.monMin.get 0 (i - 16))
  else if i = 24 then some d.mode.uvEvents
  else if i = 25 then some d.boot.pwrfails
  else if i < 28 then none
  else regNone

/-- The PMU registers. -/
def Dev.pmuReg (d : Dev) (o : Nat) : Reg :=
  if o < 0x580 then d.domReg ((o - 0x400) / 32) (o % 32 / 4)
  else if o < 0x680 then d.pmbReg ((o - 0x580) / 32) (o % 32 / 4)
  else if o < 0x6FC then d.monReg ((o - 0x680) / 4)
  else if o = 0x6FC then regN (if d.sec.window then d.sec.dbgBase else 0)
  else regNone

/-! ## MBX (Tables 16-5 and 12-4) -/

/-- LAST_TAG of a queue pair. -/
def Dev.tagReg (d : Dev) (n : Nat) : Reg :=
  match d.host.lastTag.find n with
  | some t => regN (t + 65536 + 2 ^ 17 * bit01 d.host.lastExact)
  | none => regN 0

/-- The registers of a queue pair. -/
def Dev.qpReg (d : Dev) (n o : Nat) : Reg :=
  let q := d.qp n
  match o with
  | 0x00 => regHalf q.sqBase.toNat 0
  | 0x04 => regHalf q.sqBase.toNat 1
  | 0x08 => regHalf q.cqBase.toNat 0
  | 0x0C => regHalf q.cqBase.toNat 1
  | 0x10 => some q.size
  | 0x14 => some q.cfg
  | 0x18 => some q.irq
  | 0x1C => regN q.sqTail
  | 0x20 => regN q.cqHead
  | 0x24 => regN (q.sqHead + 2 ^ 12 * bit01 (d.qpIdle n) + 2 ^ 13 * bit01 q.error + 2 ^ 14 * q.errCause + 2 ^ 16 * bit01 q.session.isSome
      + 2 ^ 24 * min 255 q.discarded)
  | _ => regNone

/-- The sequence number of the newest event entry. -/
def Dev.evtSeq (d : Dev) : Word := d.log.nextSeq - 1

def Dev.mbxReg (d : Dev) (o : Nat) : Reg :=
  match o with
  | 0x00 => regN 0x01FF0008
  | 0x04 => regN (d.host.inflight.length + 2 ^ 11 * d.host.tunnelled.length)
  | 0x08 => regN d.host.err.toNat
  | 0x0C => some d.host.errAddr
  | 0x10 => regN (d.host.lateReplies.toNat + 65536 * d.host.tunTimeouts.toNat)
  | 0x14 => some d.evtSeq
  | 0x18 => some d.log.evtAck
  | 0x1C => regN (d.host.sessions.length + 256 * (d.host.refusedFull % 256) + 65536 * (d.host.tlsFails % 65536))
  | _ =>
    if 0x20 ≤ o ∧ o < 0x40 then d.tagReg ((o - 0x20) / 4)
    else if 0x100 ≤ o ∧ o < 0x300 then d.qpReg ((o - 0x100) / 0x40) (o % 0x40)
    else if (0x8000 ≤ o ∧ o < 0x8100) ∨ (0x9000 ≤ o ∧ o < 0x9008) then some (d.host.msix.get 0 (o / 4))
    else regNone

/-! ## SEC (Table 16-6) -/

/-- The current owner slot's hash. -/
def Otp.ownerHash (o : Otp) : BitVec 384 :=
  match o.ownerSlot with
  | some i => if o.lifecycle = 1 then 0 else o.owner.get 0 i
  | none => 0

/-- Events of a list within a span. -/
def recent (now span : Nat) (l : List Nat) : Nat := (l.filter fun x => decide (now < x + span)).length

def State.secReg (s : State) (o : Nat) : Reg :=
  let d := s.dev
  let x := d.sec
  match o with
  | 0x00 => regN (s.otp.lifecycle + 16 * s.otp.keyRevoked + 256 * s.otp.ownerRevoked + 2 ^ 12 * (s.otp.ownerSlot.getD 0)
      + 2 ^ 14 * bit01 s.otp.erased + 2 ^ 15 * bit01 s.otp.erasing)
  | 0x04 => regN (x.alarm + 4 * x.present + 2 ^ 11 * x.raised + 2 ^ 20 * bit01 x.tamperErase)
  | 0x08 => regN (s.otp.rollback + 65536 * d.boot.sv)
  | 0x0C => regN (bit01 x.window + 2 * bit01 x.jtag + 4 * bit01 x.challenge.isSome
      + 65536 * (if x.challenge.isSome then 60 - (d.clk - x.challengeAt) / 625000000 else 0))
  | 0x10 => regN (recent d.clk (ticksOfS 86400) x.sigFails % 256 + 256 * (x.sigTotal.toNat % 2 ^ 24))
  | 0x14 => regN (recent d.clk (ticksOfS 3600) x.unlockFails % 256 + 256 * (recent d.clk (ticksOfS 86400) x.unlockFails % 256)
      + 65536 * x.unlockTotal.toNat)
  | 0x18 => regN (s.flash.active + 2 * bit01 (s.flash.slots.find 0).isSome + 4 * bit01 (s.flash.slots.find 1).isSome
      + 8 * bit01 s.flash.verified.isSome)
  | 0x1C => regN (x.supplyCnt.toNat + 65536 * x.clockCnt.toNat)
  | _ =>
    if 0x20 ≤ o ∧ o < 0x50 then regOf (bytesLE 48 d.boot.manifest.toNat).reverse ((o - 0x20) / 4)
    else if 0x50 ≤ o ∧ o < 0x80 then regOf (bytesLE 48 (Config.sha384 d.committedBytes).toNat).reverse ((o - 0x50) / 4)
    else if 0x80 ≤ o ∧ o < 0xB0 then regOf (bytesLE 48 s.otp.ownerHash.toNat).reverse ((o - 0x80) / 4)
    else if 0xB0 ≤ o ∧ o < 0xC0 then match d.host.sessions.find ((o - 0xB0) / 4) with
      | some y => regN (1 + 2 * y.level + 8 * bit01 y.port1 + 16 * y.qp + 65536 * y.remote)
      | none => regN 0
    else if 0xC0 ≤ o ∧ o < 0x100 then match x.log[(o - 0xC0) / 4]? with
      | some (row, lv, t) => regN (row + 16 * lv + 64 * (((t - s.safe.upAt) / 625000000) % 2 ^ 26))
      | none => regN 0
    else regNone

/-! ## TIME (Table 16-7) -/

/-- 2^−32 tick in ps. -/
def psOf (x : Int) : Int := x * 1600 / 2 ^ 32

/-- The set that a read of TBC_LO latches. -/
def Dev.timeLatched (d : Dev) (o : Nat) : Reg :=
  let v := d.ctNow
  match o with
  | 0x04 => regHalf d.tbc 1
  | 0x08 => regHalf (d.ctCycle v) 0
  | 0x0C => regN (d.ctCycle v / 2 ^ 32 + 65536 * (d.ctTick v % 65536))
  | 0x10 => regI (v % 2 ^ 32)
  | 0x14 => regHalf d.wallNow.toNat 0
  | 0x18 => regHalf d.wallNow.toNat 1
  | 0x1C => regHalf d.wallNow.toNat 2
  | _ => regN (bit01 d.tim.ctValid + 2 * bit01 d.tim.wallValid + 4 * bit01 d.tim.wallHold + 8 * bit01 d.tim.wallRef
      + 16 * bit01 d.tim.wallFab + 32 * bit01 d.tim.isRoot)

/-- TIME.SOURCE, whose port codes are 0 E, 1 W, 2 U, 3 T. -/
def Dev.sourceReg (d : Dev) : Nat :=
  match d.tim.src with
  | some p =>
    let c := d.tim.cand.get none p
    (if p = 2 then 3 else if p = 3 then 2 else p) + 8 * bit01 ((c.map (·.lane1)).getD false) + 256 * (d.tim.srcHops % 256) + 65536 * min 65535 d.tim.srcBound
  | none => 7

/-- The lane registers of TIME. -/
def Dev.ltimeReg (d : Dev) (n i : Nat) : Reg :=
  match i with
  | 0 => regN (d.lane n).delay
  | 1 => regI (d.pvi P.time_link_asym_ps n)
  | 2 => regI (psOf (d.tim.linkAt.get (0, 0) n).1)
  | _ => regN (d.tim.linkAt.get (0, 0) n).2

def Dev.tcfgReg (d : Dev) (i : Nat) : Reg :=
  match i with
  | 0 => regI (d.pv P.time_ct_step_ns)
  | 1 => regI (d.pv P.time_ct_slew_ppm)
  | 2 => regN (d.pn P.time_root_arm + 16 * d.pn P.time_root_seg)
  | 3 => regN (bit01 d.holdsOver)
  | 4 => regI (d.pv P.time_step_limit_ns)
  | 5 => regI (d.pv P.time_holdover_max_s)
  | _ => regI (d.pv P.time_wall_slew_ppm)

def Dev.timeReg (d : Dev) (o : Nat) : Reg :=
  let u := d.tim
  match o with
  | 0x00 => regHalf d.tbc 0
  | 0x40 => regN (u.root + 2 ^ 12 * u.rootM + 65536 * u.gen)
  | 0x44 => regN d.sourceReg
  | 0x48 => regI u.ct.rho
  | 0x4C => regI (psOf u.lastErr)
  | 0x50 => regI (psOf u.asymLast)
  | 0x54 => regI (psOf u.asymEst)
  | 0x58 => regI u.wall.rho
  | 0x5C => regI (u.lastOfs / 65536)
  | 0x60 => regN (u.steps.toNat + 65536 * u.outliers.toNat)
  | 0x64 => regN (u.refused.toNat + 65536 * u.masters.toNat)
  | 0x68 => regN ((u.holdSince.map fun t => (d.clk - t) / 625000000).getD 0)
  | 0x6C => regHalf (u.master.getD 0).toNat 0
  | 0x70 => regHalf (u.master.getD 0).toNat 1
  | 0x74 => regN (u.masterPort % 65536 + 65536 * (u.stepsRemoved % 256))
  | 0x7C => regN u.meanPath
  | _ =>
    if o < 0x24 then d.timeLatched o
    else if o = 0x78 ∨ (0x80 ≤ o ∧ o < 0x100) then none
    else if 0x100 ≤ o ∧ o < 0x180 then d.ltimeReg ((o - 0x100) / 16) (o % 16 / 4)
    else if 0x180 ≤ o ∧ o < 0x19C then d.tcfgReg ((o - 0x180) / 4)
    else regNone

/-! ## DUP (Tables 09-5 and 16-8) -/

/-- The 32 bytes of a health report. -/
def healthBytes (r : HealthReport) : List Byte :=
  bytesLE 6 r.cycle ++ [BitVec.ofNat 8 (r.state + 4 * r.stage + 16 * bit01 r.twinB + 32 * bit01 r.full + 64 * r.paths), BitVec.ofNat 8 r.fwMajor]
    ++ bytesLE 2 r.reasons ++ [BitVec.ofNat 8 r.reeds, BitVec.ofNat 8 r.rNeed] ++ bytesLE 6 r.ports ++ bytesLE 2 r.stPass ++ bytesLE 2 r.stFail
    ++ [BitVec.ofNat 8 r.lanes, BitVec.ofNat 8 r.tmax] ++ bytesLE 4 r.epoch ++ bytesLE 2 r.mism ++ [BitVec.ofNat 8 r.fwMinor, BitVec.ofNat 8 r.pairMinor]

/-- The report that TWIN holds: a device that is SOLO by configuration reads 0. -/
def Dev.twinBytes (d : Dev) : List Byte :=
  match d.twin.twinHealth with
  | some h => if d.duplex then healthBytes h else List.replicate 32 0
  | none => List.replicate 32 0

def Dev.dupState (d : Dev) : Nat :=
  let x := d.twin
  d.twinCode + 4 * (match x.stage with
    | .ready => 0
    | .sync => 1
    | .unfit => 2) + 16 * bit01 d.letterB + 32 * bit01 x.t.fault + 64 * bit01 x.hb.fault + 128 * bit01 x.rel.isSome + 256 * bit01 d.duplex
    + 65536 * d.pn P.dup_lease_cycles

def Dev.dupReg (d : Dev) (o : Nat) : Reg :=
  let x := d.twin
  let pair := fun (a b : BitVec 16) => regN (a.toNat + 65536 * b.toNat)
  let lexp := if x.role == .holder then d.cyc.k + d.pn P.dup_lease_cycles else x.lExp
  match o with
  | 0x40 => regN (if d.boot.operational then d.dupState else 0)
  | 0x44 => regN x.epoch
  | 0x48 => regHalf lexp 0
  | 0x4C => regHalf lexp 1
  | 0x50 => regHalf x.takeCycle 0
  | 0x54 => regN (x.takeCycle / 2 ^ 32 % 65536 + 65536 * x.takeovers.toNat)
  | 0x58 => pair x.demotions x.handovers
  | 0x5C => regN (x.mism.toNat + 65536 * (x.misRun % 65536))
  | 0x60 => regN (min 255 x.t.silent + 256 * min 255 x.hb.silent + 65536 * x.hbErrs.toNat)
  | 0x64 => pair x.syncsDone x.syncsFailed
  | 0x68 => pair x.raised x.raisedLate
  | 0x6C => pair x.tFaults x.tBack
  | 0x70 => pair x.hbFaults x.hbBack
  | 0x74 => pair x.reportsTx x.reportsRx
  | 0x78 => pair x.claims x.cfgCopies
  | 0x7C => regHalf x.lastDemote 0
  | _ =>
    if o < 0x20 then regOf (healthBytes x.own) (o / 4)
    else if o < 0x40 then regOf d.twinBytes ((o - 0x20) / 4)
    else if 0x80 ≤ o ∧ o < 0xC0 then regN (x.droneT.getD ((o - 0x80) / 4) 0)
    else if 0xC0 ≤ o ∧ o < 0x100 then regN (x.droneHb.getD ((o - 0xC0) / 4) 0)
    else regNone

/-! ## SAFE (Table 16-9) -/

/-- The accepted levels of one pair of pins. -/
def Safe.pinsReg (u : Safe) (a b : Nat) : Reg :=
  regN (bit01 (u.a.level a) + 2 * bit01 (u.a.level b) + 4 * bit01 (u.b.level a) + 8 * bit01 (u.b.level b))

def State.safeReg (s : State) (o : Nat) : Reg :=
  let u := s.safe
  let i := o % 0x10 / 4
  match o with
  | 0x40 => regN ((u.sealOf .a).1 + 65536 * (u.sealOf .a).2)
  | 0x44 => some u.isoFreq
  | 0x48 => some u.perFreq
  | 0x4C => regN (u.resets.toNat + 65536 * u.rejects.toNat)
  | 0x50 => some u.stuck
  | 0x54 => regN (u.testRes + 65536 * u.marches.toNat)
  | 0x78 => u.pinsReg 16 17
  | 0x7C => regN u.readback
  | _ =>
    if o < 0x10 then regOf (u.statusBytes s.dev.clk) i
    else if o < 0x30 then
      let n := (o - 0x10) / 4
      regN ((u.pairIn.get 0 n).toNat + 65536 * (u.pairDis.get 0 n).toNat)
    else if o < 0x40 then regN ((u.tests.get 0 i).toNat + 65536 * (u.rbFaults.get 0 i).toNat)
    else if 0x58 ≤ o ∧ o < 0x78 then u.pinsReg (2 * ((o - 0x58) / 4)) (2 * ((o - 0x58) / 4) + 1)
    else if 0x80 ≤ o ∧ o < 0x100 then match u.log[(o - 0x80) / 4]? with
      | some (st, cause, t) => regN (st + 4 * cause + 1024 * (((t - u.upAt) / 6250000) % 2 ^ 22))
      | none => regN 0
    else regNone

/-! ## Per-instance blocks (Tables 07-6, 08-9 and 16-10) -/

/-- The stages of Table 03-5 in table order; RUN and retired are both 7, as Table 16-10 has them. -/
def stageCode : PortStage → Nat
  | .off | .listen => 0
  | .lock => 1
  | .measure => 2
  | .cap => 3
  | .config => 4
  | .align => 5
  | .start => 6
  | .run => 7

def Dev.clpReg (d : Dev) (p o : Nat) : Reg :=
  let x := d.port p
  match o with
  | 0x00 => regN ((if x.retired then 7 else stageCode x.stage) + 8 * bit01 (bitN (d.pn P.link_port_enable) p) + 16 * bit01 x.retrain.isSome)
  | 0x04 => regN x.bucket
  | 0x08 => some x.bad
  | 0x0C => some x.good
  | 0x10 => regN x.retrains
  | 0x14 => regN (recent d.clk (ticksOfS 10) x.failTimes)
  | 0x18 => regI x.loopPs
  | 0x1C => regI (d.tDown p)
  | 0x20 => regN (d.dl p).phi
  | 0x24 => regN (x.head + 8 * x.accEpoch + 2 ^ 9 * bit01 x.goff + 2 ^ 10 * x.committed)
  | 0x28 => some x.lateSeen
  | 0x2C => regI (d.pv P.link_err_limit)
  | _ =>
    if 0x40 ≤ o ∧ o < 0x80 then regN (x.items.get 0 ((o - 0x40) / 4) + 256 * (x.itemAt.get 0 ((o - 0x40) / 4) % 2 ^ 24))
    else if 0x80 ≤ o ∧ o < 0xB0 then regN (x.caps.get 0 ((o - 0x80) / 4))
    else regNone

def Dev.dchReg (d : Dev) (n i : Nat) : Reg :=
  let c := d.chain n
  let p := preset c.cfg.preset
  let last := c.outs.head?
  let v : Int := (last.map (·.t)).getD 0
  let cycle := (v / (max 1 d.tModTicks : Nat)).toNat
  match i with
  | 0 => regN (p.k + 8 * p.ms + 2 ^ 8 * p.m1 + 2 ^ 12 * p.m2 + 2 ^ 16 * wrapN 5 p.sh0 + 2 ^ 21 * c.cfg.preset)
  | 1 => regN (bit01 c.bankB + 2 * c.slotA + 2 ^ 9 * c.slotB + 2 ^ 17 * bit01 c.fade.isSome + 2 ^ 18 * bit01 c.swap.isSome)
  | 2 => regN c.cfg.delay
  | 3 => regN (256 * d.chainTau n)
  | 4 => regN c.ninv
  | 5 => regN ((last.map fun x => wrapN 24 x.raw + 2 ^ 24 * x.tag).getD 0)
  | 6 => regHalf cycle 0
  | 7 => regN (cycle / 2 ^ 32 % 65536 + 65536 * ((v % (max 1 d.tModTicks : Nat)).toNat % 65536))
  | 8 => some c.nStk
  | 9 => some c.nFrz
  | 10 => some c.nOvr
  | 11 => some c.nSat
  | 12 => some c.substN
  | 13 => regN ((c.fade.map (·.1)).getD 0)
  | 14 => some c.var
  | _ => some c.nOut

/-- The pool of a reed and its index there: 0 critical, 1 deferrable, 2 reserve, 3 none (R241); the reset value before the pools are
formed. -/
def Dev.reedPool (d : Dev) (n : Nat) : Nat × Nat :=
  let c := d.cyc
  match c.crit.idxOf? n, c.defer.idxOf? n, c.reserve.idxOf? n with
  | some i, _, _ => (0, i)
  | _, some i, _ => (1, i)
  | _, _, some i => (2, i)
  | _, _, _ => (if c.crit.isEmpty && c.defer.isEmpty && c.reserve.isEmpty then 0 else 3, 0)

def Dev.reedReg (d : Dev) (n i : Nat) : Reg :=
  let r := d.reed n
  match i with
  | 0 =>
    let (pool, ix) := d.reedPool n
    let x := d.domain (3 + n / 32)
    regN (pool + 4 * bit01 (d.cyc.testing == some n) + 8 * bit01 (bitN d.par.retReeds n) + 16 * bit01 (x.faulty || x.st == .off) + 256 * (ix % 256))
  | 1 => regN r.bucket
  | 2 => some r.ecc
  | 3 => some r.tasks
  | 4 => some r.steals
  | 5 => some r.reruns
  | 7 => regN (r.passes.toNat + 65536 * r.fails.toNat)
  | _ => none

def laneStageCode : LaneStage → Nat
  | .detect => 0
  | .cdr => 1
  | .equalise => 2
  | .block => 3
  | .hello => 4
  | .delay => 5
  | .up => 6
  | .retired => 7

def Dev.laneReg (d : Dev) (n i : Nat) : Reg :=
  let l := d.lane n
  match i with
  | 0 => regN (laneStageCode l.stage + 8 * bit01 (l.idle || !d.portEnabled (n / 2)) + 16 * bit01 l.inverted + 32 * bit01 ((d.link (n / 2)).width == 1)
      + 64 * d.pni P.fab_rate (n / 2) + 256 * ((l.partner.map (·.lane)).getD 0))
  | 1 => match l.partner with
    | some x => regN (x.addr + 2 ^ 12 * bit01 x.twinB + 2 ^ 13 * x.seg + 2 ^ 17 * x.arm + 2 ^ 20 * x.port)
    | none => regN 0
  | 2 => regN l.bucket
  | 3 => some l.crcErr
  | 4 => some l.markErr
  | 5 => regN (l.retrains.toNat + 65536 * l.bringups.toNat)
  | 6 => regN (recent d.clk (ticksOfS 10) l.failTimes % 256 + 65536 * l.failTotal.toNat)
  | 7 => regN (wrapN 16 l.freq)
  | 8 => regN l.delay
  | 9 => regN l.ebFill
  | 10 => some l.rx
  | 11 => some l.tx
  | 12 => some l.retx
  | _ => none

/-- The registers of a sequencer. -/
def Dev.seqReg (d : Dev) (n i : Nat) : Reg :=
  let q := d.sarSeq n
  match i with
  | 0 => regN (bit01 q.run)
  | 1 => regN q.pass
  | 2 => regN (passLen (d.sarSlots n))
  | 3 => some q.pushed
  | 4 => some q.dropped
  | 5 => regHalf q.start 0
  | 6 => regHalf q.start 1
  | 7 => regN (d.sarHostSlots n).length
  | 8 => regN ((d.sarSlots n).length - (d.sarHostSlots n).length)
  | _ => regNone

/-- CHSTAT of a channel (Table 05-7). -/
def SarChan.stat (c : SarChan) : Nat := bit01 c.ovr + 2 * bit01 c.seen + 65536 * c.count.toNat

def SarChan.resLo (c : SarChan) : Nat := wrapN 16 c.value + 2 ^ 16 * c.tag + 2 ^ 24 * c.slot + 2 ^ 29 * c.adc

/-- SAR.REF; the deviation is that of the last VMON3 result. -/
def Dev.refReg (d : Dev) : Nat :=
  let exp : Int := ((if d.sar.ext = 0 then 2500 else d.sar.refMv : Nat) : Int) * 1000
  let dev : Int := if exp = 0 then 0 else ((d.sarChan 23).last * 125 - exp) * 10000 / exp
  bit01 (d.sar.ext != 0) + 2 * bit01 d.sar.settling + 4 * bit01 d.sar.refFault + 65536 * wrapN 16 dev

def Dev.adcReg (d : Dev) (i : Nat) : Reg :=
  let q := d.sarSeq (i / 3)
  match i % 3 with
  | 0 => regN (bit01 (!q.disabled) + 2 * bit01 q.disabled + 4 * bit01 q.cal.isSome)
  | 1 => regN q.bucket
  | _ => some q.convs

def Dev.sarReg (d : Dev) (o : Nat) : Reg :=
  if o = 0 then regN d.refReg
  else if o < 0x34 then d.adcReg ((o - 4) / 4)
  else if 0x100 ≤ o ∧ o < 0x1C0 then
    let c := d.sarChan ((o - 0x100) / 8)
    if o % 8 = 0 then regN c.resLo else regN c.tbc
  else if 0x200 ≤ o ∧ o < 0x260 then regN (d.sarChan ((o - 0x200) / 4)).stat
  else if 0x300 ≤ o ∧ o < 0x400 then
    let j := (o - 0x300) / 4
    regN (wrapN 16 (d.pvi P.sar_cal_ofs j) + 65536 * (((d.pni P.sar_cal_k j) + 2 ^ 14) / 2 ^ 15 % 65536))
  else if 0x400 ≤ o ∧ o < 0x4A0 then d.seqReg ((o - 0x400) / 40) ((o - 0x400) % 40 / 4)
  else regNone

/-- ACQ's own registers, in the order of Table 16-10. -/
def Dev.acqReg (d : Dev) (i : Nat) : Reg :=
  let r := d.acq
  if 10 ≤ i ∧ i < 14 then some (r.lines.get {} (i - 10)).nSent
  else if 14 ≤ i ∧ i < 18 then some (r.lines.get {} (i - 14)).nValid
  else match i with
  | 0 => regN (if r.waiting then 3 else if r.armed then (if r.auto then 2 else 1) else 0)
  | 1 => regN (r.nextId - 1)
  | 2 => regN r.records.length
  | 3 => regN d.freeSegs.length
  | 4 => regN r.pool
  | 5 => regN r.lAlign
  | 6 => regN r.nLate
  | 7 => regN r.nMissed
  | 8 => some r.overflows
  | 9 => some r.pagesLost
  | 18 => some r.fabTx
  | 19 => some r.fabRx
  | 20 => some r.fabDrop
  | _ => regNone

def Dev.unitReg (d : Dev) (u i : Nat) : Reg :=
  match d.acq.units[u]? with
  | none => regN (if i = 0 then d.pni P.rec_u_role u + 4 * d.pni P.rec_u_type u else 0)
  | some x =>
    let s := splitInst d.tModTicks x.lastFire
    match i with
    | 0 => regN (x.role + 4 * x.typ + 2 ^ 8 * bit01 x.high)
    | 1 => some x.nFires
    | 2 => some x.nQual
    | 3 => some x.nHold
    | 4 => regHalf s.1 0
    | 5 => regN (s.1 / 2 ^ 32 % 65536 + 65536 * (s.2.1 % 65536))
    | 6 => regN x.lastQ
    | _ => some x.nBad

def Dev.busReg (d : Dev) (n i : Nat) : Reg :=
  let l := d.acq.lines.get {} n
  match i with
  | 0 => regI (d.pvi P.rec_bus_mode n)
  | 1 => some l.nGlitch
  | 2 => some l.nValid
  | 3 => some l.nLate
  | 4 => some l.nIgnored
  | 5 => regN l.width
  | 6 => regHalf l.edge 0
  | _ => regHalf l.edge 1

def Dev.setReg (d : Dev) (s i : Nat) : Reg :=
  let x := d.acq.sets.get (0, 0, 0) s
  match i with
  | 0 => some x.1
  | 1 => regN x.2.1
  | 2 => regN x.2.2
  | _ => some (d.acq.setNaN.get 0 s)

def Dev.acqBlock (d : Dev) (o : Nat) : Reg :=
  if o < 0x80 then d.acqReg (o / 4)
  else if 0x100 ≤ o ∧ o < 0x300 then d.unitReg ((o - 0x100) / 32) (o % 32 / 4)
  else if 0x300 ≤ o ∧ o < 0x380 then d.busReg ((o - 0x300) / 32) (o % 32 / 4)
  else if 0x400 ≤ o ∧ o < 0x500 then d.setReg ((o - 0x400) / 16) (o % 16 / 4)
  else regNone

def Dev.qmgrReg (d : Dev) (i : Nat) : Reg :=
  let q := d.que
  let sum := fun (f : Queue → Word) => q.q.foldl (fun (n : Word) (x : Nat × Queue) => n + f x.2) 0
  match i with
  | 0 => regN q.free
  | 1 => regN q.poolMin
  | 2 => regN (q.q.filter fun (x : Nat × Queue) => !x.2.items.isEmpty).length
  | 3 => some (sum (·.overflow))
  | 4 => some (sum (·.trunc))
  | 5 => regN (q.fcOut + 16 * q.fcIn)
  | 6 => regN ((List.range 1024).filter d.paused).length
  | 7 => some q.stalls
  | 8 => some q.eccCe
  | 9 => some q.eccUe
  | 10 => some q.pushed
  | 11 => some q.popped
  | _ => regNone

/-- DDRC: the size, the entries into self-refresh and the table of mapped-out pages; the controller's own results are open. The
first words stand in the order of Table 16-10 (DESIGN CHOICE, log entry 70). -/
def Dev.ddrcReg (d : Dev) (o : Nat) : Reg :=
  if o = 8 then regN (d.flt.dramPages / 256)
  else if o = 20 then some d.flt.srEntries
  else if o < 0x100 then none
  else if o < 0x200 then match d.flt.mapped[(o - 0x100) / 4]? with
    | some m => regN m.1
    | none => regN 0xFFFFFFFF
  else regNone

/-- NET: what the PCIe and Ethernet engines count is open. -/
def netReg (o : Nat) : Reg := if o < 0x80 ∨ (0x100 ≤ o ∧ o < 0x240) ∨ (0x300 ≤ o ∧ o < 0x320) then none else regNone

/-! ## The map (Table 16-1) -/

/-- The blocks: base, span, domain. -/
inductive Block where
  | sys | mbx | sec | time | safe | dup | sar | acq | lane | clp | dch | reed | qmgr | ddrc | net | window
  deriving DecidableEq, Repr

/-- The block that holds a BAR0 address, with the offset in it (R494). -/
def blockOf (a : Nat) : Option (Block × Nat) :=
  let i := a / 65536
  let o := a % 65536
  match i with
  | 0 => some (.sys, o)
  | 1 => some (.mbx, o)
  | 2 => some (.sec, o)
  | 3 => some (.time, o)
  | 4 => some (.safe, o)
  | 5 => some (.dup, o)
  | 6 => some (.sar, o)
  | 7 => some (.acq, o)
  | 8 => if o < 0x8000 then some (.lane, o) else none
  | 0x10 => if o < 0xC000 then some (.clp, o) else none
  | 0x20 => if o < 0x6800 then some (.dch, o) else none
  | 0x30 => if o < 0x4000 then some (.reed, o) else none
  | 0x40 => some (.qmgr, o)
  | 0x50 => some (.ddrc, o)
  | 0x60 => some (.net, o)
  | _ => if 0x100 ≤ i ∧ i < 0x200 then some (.window, a - 0x1000000) else none

/-- In REST a block lies in a domain at RET or OFF and reads as all ones (R485). -/
def blockRests : Block → Bool
  | .time | .dup | .sar | .acq | .lane | .clp | .dch | .reed | .qmgr | .ddrc => true
  | _ => false

/-- The bits of an open register that are not reserved, which read 0 (R9): TIME.PTP_STATE, REED.BUSY, and of a lane TXEQ and CTLE. -/
def reedOpen (i : Nat) : Nat := if i = 6 then 0x3FF else 0xFFFFFFFF
def laneOpen (i : Nat) : Nat := if i = 14 then 0x3F3F3F else if i = 16 then 0xF else 0xFFFFFFFF
def openBits (b : Block) (o : Nat) : Nat :=
  match b with
  | .time => if o = 0x78 then 0xFF else 0xFFFFFFFF
  | .reed => reedOpen (o % 0x100 / 4)
  | .lane => laneOpen (o % 0x1000 / 4)
  | _ => 0xFFFFFFFF

/-- The internal address that an offset of the open debug window reaches (R501). -/
def Dev.dbgAddr (d : Dev) (o : Nat) : Nat := d.sec.dbgBase * 16777216 + o

/-- The value of the register at a BAR0 address, latches aside. -/
def State.reg (s : State) (b : Block) (o : Nat) : Reg :=
  let d := s.dev
  match b with
  | .sys => if o < 0x100 then s.sysReg o else if 0x400 ≤ o ∧ o < 0x700 then d.pmuReg o else regNone
  | .mbx => d.mbxReg o
  | .sec => s.secReg o
  | .time => d.timeReg o
  | .safe => s.safeReg o
  | .dup => d.dupReg o
  | .sar => d.sarReg o
  | .acq => d.acqBlock o
  | .lane => if o % 0x1000 < 0x80 then d.laneReg (o / 0x1000) (o % 0x1000 / 4) else regNone
  | .clp => d.clpReg (o / 0x400) (o % 0x400)
  | .dch => if o % 0x100 < 0x40 then d.dchReg (o / 0x100) (o % 0x100 / 4) else regNone
  | .reed => if o % 0x100 < 0x20 then d.reedReg (o / 0x100) (o % 0x100 / 4) else regNone
  | .qmgr => d.qmgrReg (o / 4)
  | .ddrc => d.ddrcReg o
  | .net => netReg o
  | .window => d.sec.dbgMem.find (d.dbgAddr o)

end Sys2Proof.Machine
end

