-- ==== Sys2Proof/Machine/HostRegs.lean ====
section
/-!
DEFINITION. Machine/HostRegs.lean: the host's reads and writes of BAR0 (R382, R391, R494 to R508) and the commands NOP,
DEV_INFO and HEALTH_READ (R402, R511).
-/
namespace Sys2Proof.Machine

open Sys2Proof

/-- A discarded access: counted in MBX.ERR. -/
def Dev.badAccess (d : Dev) (addr : Nat) : Dev := (d.countErr addr).raiseLim Ev.MBX_BAR_ACCESS 0 (ticksOfS 1)

/-- A host read of all ones. -/
def Dev.readOnes (d : Dev) : Dev := { d with host := { d.host with readout := 0xFFFFFFFF#32 } }

/-! ## Latches (R185, R331, R497, R508) -/

/-- The offsets latched by a read of the register at `o`: the _HI half, or the wider sets of TIME and DUP. -/
def latchedBy (b : Block) (o : Nat) : List Nat :=
  match b with
  | .sys => if o = 0x34 ∨ o = 0x3C ∨ o = 0x58 then [o + 4] else []
  | .mbx => if 0x100 ≤ o ∧ o < 0x300 ∧ (o % 0x40 = 0 ∨ o % 0x40 = 8) then [o + 4] else []
  | .time => if o = 0 then [4, 8, 0xC, 0x10, 0x14, 0x18, 0x1C, 0x20] else if o = 0x6C then [0x70] else []
  | .dup =>
    if o = 0 ∨ o = 0x20 then [o + 4, o + 8, o + 0xC, o + 0x10, o + 0x14, o + 0x18, o + 0x1C]
    else if o = 0x48 ∨ o = 0x50 then [o + 4]
    else []
  | .sar =>
    if 0x100 ≤ o ∧ o < 0x1C0 ∧ o % 8 = 0 then [o + 4]
    else if 0x400 ≤ o ∧ o < 0x4A0 ∧ (o - 0x400) % 40 = 20 then [o + 4]
    else []
  | .dch => if o % 0x100 = 0x18 then [o + 4] else []
  | .acq => if 0x300 ≤ o ∧ o < 0x380 ∧ o % 32 = 24 then [o + 4] else []
  | _ => []

/-- A register's value, an open one drawn. -/
def Dev.regVal (d : Dev) (bits : Nat) (r : Reg) : Dev × Word :=
  match r with
  | some v => (d, v)
  | none => (d.drawn, d.freeVal 32 &&& BitVec.ofNat 32 bits)

/-- The registers at some offsets of a block latched, as they stand now. -/
def Dev.latch (s : State) (b : Block) (addr o : Nat) (d : Dev) : Dev :=
  (latchedBy b o).foldl (fun (d : Dev) (x : Nat) =>
    let (d, v) := d.regVal (openBits b x) (s.reg b x)
    { d with host := { d.host with latched := d.host.latched.set (addr - o + x) v } }) d

/-- What a read does besides: MBX.ERR clears (R496), the flags of a SAR channel move on (R185). -/
def Dev.readEffect (d : Dev) (b : Block) (o : Nat) : Dev :=
  match b with
  | .mbx => if o = 8 then { d with host := { d.host with err := 0 } } else d
  | .sar =>
    if 0x100 ≤ o ∧ o < 0x1C0 then
      let ch := (o - 0x100) / 8
      d.setSarChan ch { d.sarChan ch with loRead := o % 8 == 0 }
    else if 0x200 ≤ o ∧ o < 0x260 then
      let ch := (o - 0x200) / 4
      d.setSarChan ch { d.sarChan ch with ovr := false }
    else d
  | _ => d

/-- A host read of one register, taken at one tick (R495): all ones outside every block and through a closed debug window
(R382, R501), and for a block whose domain is at RET or OFF in REST (R485). -/
def State.hostRead (s : State) (addr : Nat) (d : Dev) : Dev :=
  match blockOf addr with
  | none => (d.badAccess addr).readOnes
  | some (b, o) =>
    if addr % 4 ≠ 0 ∨ (b = .window ∧ !d.sec.window) then (d.badAccess addr).readOnes
    else if d.mode.power = .rest ∧ blockRests b then d.readOnes
    else
      let r : Reg := match d.host.latched.find addr with
        | some v => some v
        | none => s.reg b o
      let (d, v) := d.regVal (openBits b o) r
      (Dev.latch s b addr o { d with host := { d.host with readout := v } }).readEffect b o

/-- The read of a register, as one command. -/
def State.readCmd (s : State) (t : Nat) (wf : Bool) (addr : Nat) : Answer :=
  s.upd t wf fun s d => ({ s with dev := d } : State).hostRead addr d

/-- A read of TIME.TBC_LO (R331, R507). -/
def execTbcLoRead (t : Nat) (s : State) : Answer := s.readCmd t true 0x30000

/-- A read of SAR.CHRES_LO (R185). -/
def execChresLoRead (t : Nat) (ch : Nat) (s : State) : Answer := s.readCmd t (ch < 24) (0x60100 + 8 * ch)

/-- A read of DUP.OWN[0] or DUP.TWIN[0] (R508). -/
def execHealthRegisterLatchRead (t : Nat) (twin : Bool) (s : State) : Answer := s.readCmd t true (if twin then 0x50020 else 0x50000)

/-- A read of the _LO register of a pair, or of any other register (R494, R497). -/
def execPairLoRead (t : Nat) (addr : Nat) (s : State) : Answer := s.readCmd t true addr

/-- A read of an RC field, or of any other register (R496). -/
def execRcFieldRead (t : Nat) (addr : Nat) (s : State) : Answer := s.readCmd t true addr

/-- An access that is no aligned 32-bit access, or that lies outside every block (R382). -/
def execBarInvalidAccess (t : Nat) (addr : Nat) (write : Bool) (s : State) : Answer :=
  s.upd t true fun _ d => if write then d.badAccess addr else (d.badAccess addr).readOnes

/-! ## Writes -/

/-- A write of MBX.EVT_ACK. Vector 8 stays on while a newer entry meets the filter (R504). -/
def Dev.ackEvents (d : Dev) (v : Word) : Dev :=
  let d := { d with log := { d.log with evtAck := v } }
  if d.log.ring.any (fun e => decide (v.toNat < e.seq.toNat) && decide (d.host.evtFilter ≤ e.sev) && e.cont.isNone) then d.emit (.irq 8) else d

def execEvtAckWrite (t : Nat) (v : Word) (s : State) : Answer := s.upd t true fun _ d => d.ackEvents v

/-- A write of a SYS register: SCRATCH, WAKE, the RWL fields without the lock, DBG_BASE with the window open. -/
def Dev.writeSys (d : Dev) (addr o : Nat) (v : Word) : Dev :=
  if o = 0x14 then (if bitN v.toNat 0 then d.wakeBy .sysWake else d)
  else if o = 0x2C ∨ o = 0x30 then
    if d.par.lock then d.countErr addr
    else if o = 0x2C then { d with host := { d.host with evtFilter := v.toNat % 4 } }
    else { d with host := { d.host with hostTag := v } }
  else if 0x60 ≤ o ∧ o < 0x80 then { d with host := { d.host with scratch := d.host.scratch.set ((o - 0x60) / 4) v } }
  else if o = 0x6FC then
    if d.sec.window then { d with sec := { d.sec with dbgBase := v.toNat % 16 } } else d.countErr addr
  else if o < 0x100 ∨ (0x400 ≤ o ∧ o < 0x6FC) then d.countErr addr
  else d

/-- A write of a queue-pair register other than its doorbells (R391, Table 12-4); reserved bits stay 0. -/
def Dev.writeQp (d : Dev) (addr n o : Nat) (v : Word) : Dev :=
  let q := d.qp n
  let free := !q.enabled && d.qpIdle n
  let lo := fun (x : BitVec 64) (mask : Nat) => BitVec.ofNat 64 (x.toNat / 2 ^ 32 * 2 ^ 32 + v.toNat / mask * mask)
  let hi := fun (x : BitVec 64) => BitVec.ofNat 64 (v.toNat * 2 ^ 32 + x.toNat % 2 ^ 32)
  let base := fun (q' : Qp) => if free then d.setQp n q' else d.countErr addr
  match o with
  | 0x00 => base { q with sqBase := lo q.sqBase 64 }
  | 0x04 => base { q with sqBase := hi q.sqBase }
  | 0x08 => base { q with cqBase := lo q.cqBase 32 }
  | 0x0C => base { q with cqBase := hi q.cqBase }
  | 0x10 => base { q with size := v &&& 0x0FFF0FFF#32 }
  | 0x14 => d.writeCfg n v
  | 0x18 => d.setQp n { q with irq := v &&& 0x00FFFFFF#32 }
  | 0x1C => d.sqDoorbell n v
  | 0x20 => d.cqDoorbell n v
  | 0x24 => d.countErr addr
  | _ => d

/-- A write in MBX. -/
def Dev.writeMbx (d : Dev) (addr o : Nat) (v : Word) : Dev :=
  if o = 0x18 then d.ackEvents v
  else if 0x100 ≤ o ∧ o < 0x300 then d.writeQp addr ((o - 0x100) / 0x40) (o % 0x40) v
  else if (0x8000 ≤ o ∧ o < 0x8100) ∨ (0x9000 ≤ o ∧ o < 0x9008) then { d with host := { d.host with msix := d.host.msix.set (o / 4) v } }
  else if o < 0x40 then d.countErr addr
  else d

/-- A write through the debug window: discarded while it is closed, else at the internal address (R501; what it reaches beyond
that address DESIGN CHOICE, log entry 14). -/
def Dev.writeWindow (d : Dev) (addr o : Nat) (v : Word) : Dev :=
  if d.sec.window then { d with sec := { d.sec with dbgMem := d.sec.dbgMem.set (d.dbgAddr o) v } } else d.badAccess addr

/-- A host write of one register (R494, R495, R498, R500, R501). -/
def execRegisterWrite (t : Nat) (addr : Nat) (v : Word) (s : State) : Answer :=
  match blockOf addr with
  | some (b, o) => s.upd t true fun _ d =>
    if addr % 4 ≠ 0 then d.badAccess addr
    else match b with
      | .sys => d.writeSys addr o v
      | .mbx => d.writeMbx addr o v
      | .window => d.writeWindow addr o v
      | _ => d.badAccess addr
  | none => s.upd t true fun _ d => d.badAccess addr

/-! ## Commands -/

/-- NOP (R402). -/
def execNop (t : Nat) (c : CmdRef) (s : State) : Answer := s.upd t true fun _ d => d.runCmd c 0x0001 fun d => (d, stRes Sc.DONE)

/-- DEV_INFO: part and stepping, firmware version, device address, twin state, roles (Table 12-9; its layout DEDUCED, log
entry 71). -/
def execDevInfo (t : Nat) (c : CmdRef) (s : State) : Answer :=
  s.upd t true fun _ d => d.runCmd c 0x0002 fun d =>
    (d, ⟨Sc.DONE, bytesLE 4 0x21489600 ++ bytesLE 4 d.boot.version.toNat ++ bytesLE 2 d.addr
      ++ [BitVec.ofNat 8 d.twinCode, BitVec.ofNat 8 d.roles], []⟩)

/-- The bytes of a list of registers, each with the bits that may be open, an open one drawn. -/
def Dev.regsBytes (d : Dev) (rs : List (Nat × Reg)) : Dev × List Byte :=
  rs.foldl (fun (x : Dev × List Byte) r =>
    let (d, v) := x.1.regVal r.1 r.2
    (d, x.2 ++ bytesLE 4 v.toNat)) (d, [])

/-- The CELL entry (Table 16-12). -/
def Dev.cellHealth (d : Dev) (p : Nat) : List Byte :=
  let x := d.port p
  let c := d.cell p
  let st := (((d.armSt (d.portArm p)).own.bind fun b => b.states[p]?).map stateByte).getD 0
  let dly := fun i => bytesLE 2 (wrapN 16 (clampInt (-32768) 32767 (cellDelay c d.gTicks i)))
  let cap := clampInt 0 65535 (f32floor 15 (f32div (d.capOf c) (f32ofRat (d.pn P.mod_cap_nom_uf) 1000000)))
  [BitVec.ofNat 8 st, BitVec.ofNat 8 (x.head % 8 + 8 * bit01 (bitN d.par.retCells p))] ++ bytesLE 2 cap.toNat
    ++ dly 0 ++ dly 1 ++ dly 2 ++ dly 3 ++ bytesLE 2 (x.bucket % 65536)
    ++ [BitVec.ofNat 8 (x.items.get 0 1), BitVec.ofNat 8 (x.items.get 0 2)]

/-- The ARM entry of a port group (Table 16-11; its layout DEDUCED, log entry 71). -/
def Dev.armHealth (d : Dev) (g : Nat) : List Byte :=
  let a := d.pni P.mod_pg_arm g
  let st := d.armSt a
  [BitVec.ofNat 8 a, BitVec.ofNat 8 (bit01 st.isolated + 2 * bit01 st.warned)] ++ bytesLE 2 st.nUse ++ bytesLE 2 st.nFb
    ++ bytesLE 2 st.presence ++ bytesLE 4 st.band ++ bytesLE 4 st.late ++ bytesLE 4 st.substs ++ bytesLE 4 st.sats ++ bytesLE 8 0

/-- The number of entries of a health array (Table 16-11). -/
def healthCount : Nat → Nat
  | 0 => 48
  | 1 => 3
  | 2 => 64
  | 3 => 8
  | 4 => 2
  | 5 => 1024
  | _ => 0

/-- One entry of a health array. -/
def Dev.healthEntry (d : Dev) (array i : Nat) : Dev × List Byte :=
  match array with
  | 0 => (d, d.cellHealth i)
  | 1 => (d, d.armHealth i)
  | 2 => d.regsBytes ((List.range 8).map fun j => (reedOpen j, d.reedReg i j))
  | 3 => d.regsBytes ((List.range 8).map fun j => (laneOpen j, d.laneReg i j))
  | 4 => (d, if i = 0 then healthBytes d.twin.own else d.twinBytes)
  | _ => (d, match d.flt.mapped[i]? with
    | some m => bytesLE 4 m.1 ++ bytesLE 4 m.2
    | none => bytesLE 4 0xFFFFFFFF ++ bytesLE 4 0)

/-- HEALTH_READ (R511). -/
def execHealthRead (t : Nat) (c : CmdRef) (array first count : Nat) (s : State) : Answer :=
  s.upd t true fun _ d => d.runCmd c 0x0005 fun d =>
    if healthCount array = 0 ∨ healthCount array < first + count then (d, stRes Sc.RANGE)
    else
      let r := (List.range count).foldl (fun (x : Dev × List Byte) (i : Nat) =>
        let (d, bs) := x.1.healthEntry array (first + i)
        (d, x.2 ++ bs)) (d, [])
      (r.1, ⟨Sc.DONE, [], r.2⟩)

end Sys2Proof.Machine
end

