-- ==== Sys2Proof/Machine/Release.lean ====
section
/-!
DEFINITION. Machine/Release.lean: the release of the input blocks to the chains, whose outputs the trigger units then see (R133, R361).
-/
namespace Sys2Proof.Machine

open Sys2Proof

/-- The modelled cell of a port over the block of epoch n (R481): its capacitor of mod.cap_nom_uf takes the charge that the
arm current brings in the states that the cell executes; without an arm current it keeps its voltage. The voltage at which the model
starts is open (DESIGN CHOICE, log entry 69). -/
def Dev.simStep (d : Dev) (epoch p : Nat) : Dev :=
  let (d, x) : Dev × SimCell := match d.mode.sim.find p with
    | some x => (d, x)
    | none => (d.drawn, { v := d.freeVal 32 })
  let t0 : Int := ((epoch - 1) * 625 : Nat)
  let t1 : Int := (epoch * 625 : Nat)
  let sched := (d.cell p).sched
  let dq := match d.armCurrent (d.portArm p) t1 with
    | some i => f32mul (f32mul i (insertedFraction sched t0 t1)) (f32ofRat 1 1000000)
    | none => f0
  let v := f32add x.v (f32div dq (f32ofRat (d.pn P.mod_cap_nom_uf) 1000000))
  let ran := (spansIn sched t0 t1).map fun y => ((y.2.1 - y.1).toNat, cmdCode y.2.2)
  let (b0, cv) := Config.simStream x.cv v []
  let (b1, ct) := Config.simStream x.ct v ran
  let b := d.meas.blocks.get {} p
  { d with meas := { d.meas with blocks := d.meas.blocks.set p { b with own := ((epoch, b0, b1) :: b.own.filter (·.1 != epoch)).take 8 } }
           mode := { d.mode with sim := d.mode.sim.set p { v := v, cv := cv, ct := ct } } }

/-- The modelled cells over the block of epoch n. -/
def Dev.simCells (d : Dev) (epoch : Nat) : Dev :=
  ((List.range 48).filter d.simCell).foldl (fun (d : Dev) p => d.simStep epoch p) d

/-- At n + 4.0 µs the cell block of epoch n is released (R133). -/
def execCellBlockRelease (t : Nat) (epoch : Nat) (s : State) : Answer :=
  s.upd t (1 ≤ epoch) fun _ d => ((d.simCells epoch).releaseCells epoch).recFeed

/-- At n + 0.5 µs the REF block of epoch n is released (R133). -/
def execRefBlockRelease (t : Nat) (epoch : Nat) (rmd : List (BitVec 50)) (s : State) : Answer :=
  s.upd t (1 ≤ epoch) fun _ d => (d.releaseRefs epoch rmd).recFeed

end Sys2Proof.Machine
end

