-- ==== Sys2Proof/Machine/Security.lean ====
section
/-!
DEFINITION. Machine/Security.lean: tamper sources and the alarm, firmware images, identity and attestation, debug unlock
(R446 to R457).
-/
namespace Sys2Proof.Machine

open Sys2Proof

/-! ## Alarm (R455 to R457) -/

/-- The level of a row of Table 14-6; a third supply glitch within 1 s has level 2. -/
def Dev.rowLevel (d : Dev) (row : Nat) : Nat :=
  if row = 0 then (if 3 ≤ d.sec.glitches.length then 2 else 1) else [1, 2, 2, 2, 3, 3, 1, 1, 1].getD row 0

/-- A source is detected, or is no longer present (rows of Table 14-6, from 0). -/
def execTamperSource (t : Nat) (row : Nat) (present : Bool) (s : State) : Answer :=
  s.updAll t (row < 9) fun s =>
    let d := s.dev
    if !s.safe.powered then s
    else if present then
      let x := { d.sec with present := d.sec.present ||| 2 ^ row,
                            glitches := if row = 0 then within d.clk (ticksOfS 1) d.sec.glitches else d.sec.glitches,
                            supplyCnt := if row = 0 then d.sec.supplyCnt + 1 else d.sec.supplyCnt,
                            clockCnt := if row = 1 then d.sec.clockCnt + 1 else d.sec.clockCnt }
      let d := { d with sec := x, boot := { d.boot with halted := d.boot.halted || (row == 3 && !d.boot.operational) } }
      ({ s with dev := d }).alarm row (d.rowLevel row)
    else { s with dev := { d with sec := { d.sec with present := maskOf 9 fun i => i != row && bitN d.sec.present i } } }

/-- SEC_ALARM_CLEAR lowers the level when no source of a higher level is present (R457). -/
def execSecAlarmClear (t : Nat) (c : CmdRef) (level : Nat) (s : State) : Answer :=
  s.upd t true fun _ d => d.runCmd c 0x0105 fun d =>
    let higher := (List.range 9).any fun r => bitN d.sec.present r && decide (level < d.alarmLevel (d.rowLevel r))
    if 3 ≤ level || higher then (d, stRes Sc.STATE)
    else
      let low := decide (level < d.sec.alarm)
      let d := { d with sec := { d.sec with alarm := min level d.sec.alarm, raised := 0 } }
      (if low then d.raise Ev.SEC_ALARM_CLEARED level else d, stRes Sc.DONE)

/-! ## Host commands that reach the OTP or the boot flash -/

/-- A host command on the whole state that completes at once. -/
def State.runCmd (s : State) (c : CmdRef) (op : Nat) (body : State → State × CmdResult) : State :=
  if fenceWaits c s.dev.host.inflight false then s
  else match s.dev.precheck c op with
  | some st => { s with dev := s.dev.complete c op (stRes st) }
  | none => { (body s).1 with dev := (body s).1.dev.complete c op (body s).2 }

/-- FW_STAGE writes image bytes into the staging area, 16 MB; what is staged then is no longer the image that FW_VERIFY
accepted (R447, DEDUCED, log entry 66). -/
def execFwStage (t : Nat) (c : CmdRef) (offset : Nat) (data : List Byte) (s : State) : Answer :=
  s.updAll t true fun s => s.runCmd c 0x0100 fun s =>
    if 2 ^ 24 < offset + data.length then (s, stRes Sc.RANGE)
    else ({ s with flash := { s.flash with staged := memWriteN s.flash.staged offset data, verified := none } }, stRes Sc.DONE)

/-- The staged image: as many bytes as its header says. -/
def Flash.stagedImage (f : Flash) : Image := memReadN f.staged 0 (min (2 ^ 24) (natLE (memReadN f.staged 0x10 8)))

/-- FW_VERIFY checks the staged image and writes it into the slot that is not active (R446, R447). -/
def execFwVerify (t : Nat) (c : CmdRef) (s : State) : Answer :=
  s.updAll t true fun s => s.runCmd c 0x0101 fun s =>
    let m := s.flash.stagedImage
    match imageCheck s.otp m with
    | some st =>
      (({ s with flash := { s.flash with verified := none } }).imageRefused st, stRes st)
    | none =>
      let slot := 1 - s.flash.active
      ({ s with flash := { s.flash with slots := s.flash.slots.set slot m, verified := some slot, ownerImage := m.isOwner } }, stRes Sc.DONE)

/-- The owner key of the verified image is programmed into the lowest unused slot, and the current one revoked (R451). -/
def State.setOwner (s : State) (m : Image) : State × CmdResult :=
  match (List.range 4).find? (fun i => (s.otp.owner.find i).isNone), m.ownerKey with
  | some i, some k =>
    let rev := match s.otp.ownerSlot with
      | some j => s.otp.ownerRevoked ||| 2 ^ j
      | none => s.otp.ownerRevoked
    let o := { s.otp with owner := s.otp.owner.set i (Config.sha384 k), ownerRevoked := rev, lifecycle := max s.otp.lifecycle 2 }
    ({ s with otp := o, flash := { s.flash with verified := none }, dev := s.dev.raise Ev.SEC_OWNER_SET i }, stRes Sc.DONE)
  | _, _ => (s, stRes Sc.STATE)

/-- The converter state forbids an activation: outside DE-ENERGISED on a holder, a solo device or a standby in SYNC. -/
def Dev.activateBlocked (d : Dev) : Bool :=
  d.mode.conv != .deEnergised
    && (d.twin.role == .holder || d.twin.role == .solo || (d.twin.role == .standby && d.twin.stage == .sync))

/-- FW_ACTIVATE names the verified slot, completes and restarts the device; an OWNER image sets the owner key, with no
restart (R447, R451). -/
def execFwActivate (t : Nat) (c : CmdRef) (b : BootInputs) (s : State) : Answer :=
  s.updAll t (b.straps.length == 8) fun s =>
    if fenceWaits c s.dev.host.inflight false then s
    else match s.dev.precheck c 0x0102, s.flash.verified with
      | some st, _ => { s with dev := s.dev.complete c 0x0102 (stRes st) }
      | none, none => { s with dev := s.dev.complete c 0x0102 (stRes Sc.STATE) }
      | none, some slot =>
        if s.dev.activateBlocked then { s with dev := s.dev.complete c 0x0102 (stRes Sc.STATE) }
        else if s.flash.ownerImage then
          let (s', r) := s.setOwner (s.flash.slots.get [] slot)
          { s' with dev := s'.dev.complete c 0x0102 r }
        else
          let s := { s with flash := { s.flash with active := slot, byActivate := true }, dev := s.dev.completeNow c (stRes Sc.DONE) }
          s.runActivated slot b

/-! ## Identity and attestation (R452, R453) -/

/-- A digest or signature as bytes, most significant first. -/
def bytesBE (n x : Nat) : List Byte := (bytesLE n x).reverse

/-- SEC_IDENTITY returns the certificates of the boot flash. -/
def execSecIdentity (t : Nat) (c : CmdRef) (s : State) : Answer :=
  s.upd t true fun _ d => d.runCmd c 0x0104 fun d => (d, ⟨Sc.DONE, [], Config.identityCerts⟩)

/-- Bytes 0x000 to 0x0DF of the attestation report (Table 14-5). -/
def State.attest (s : State) (nonce : BitVec 256) : List Byte :=
  let d := s.dev
  let owner := match s.otp.ownerSlot with
    | some i => if s.otp.lifecycle = 2 then (s.otp.owner.get 0 i).toNat else 0
    | none => 0
  bytesLE 2 1 ++ bytesLE 2 0x140 ++ bytesLE 8 s.otp.serial.toNat ++ bytesLE 1 0x21 ++ bytesLE 1 s.otp.lifecycle
    ++ bytesLE 1 d.sec.alarm ++ bytesLE 1 0 ++ bytesLE 4 d.boot.version.toNat ++ bytesLE 2 s.otp.rollback ++ bytesLE 2 d.boot.sv
    ++ bytesLE 4 d.boot.count.toNat ++ bytesLE 4 0 ++ bytesBE 48 d.boot.manifest.toNat
    ++ bytesBE 48 (Config.sha384 d.committedBytes).toNat ++ bytesBE 48 owner ++ bytesLE 32 nonce.toNat
    ++ bytesLE 12 d.wallNow.toNat ++ bytesLE 2 (bit01 d.tim.wallValid + 2 * bit01 d.par.lock + 4 * bit01 d.sec.window) ++ bytesLE 2 0

/-- The order of the group of brainpoolP384r1 (RFC 5639; PRESUMED, log entry 138). -/
def brainpoolOrder : Nat :=
  0x8CB91E82A3386D280F5D6F7E50E641DF152F7109ED5456B31F166E6CAC0425A7CF3AB6AF6B7FC3103B883202E9046565

/-- The ASCII bytes of "SD4896 ID". -/
def identityLabel : List Byte := [0x53, 0x44, 0x34, 0x38, 0x39, 0x36, 0x20, 0x49, 0x44]

/-- The identity private key, derived from the root secret (R452). -/
def Otp.identityKey (o : Otp) : Nat :=
  (Config.sha384 (identityLabel ++ bytesLE 32 o.rootSecret.toNat)).toNat % (brainpoolOrder - 1) + 1

/-- SEC_ATTEST returns the signed report. -/
def execSecAttest (t : Nat) (c : CmdRef) (nonce : BitVec 256) (s : State) : Answer :=
  s.updAll t true fun s => s.runCmd c 0x0103 fun s =>
    let b := s.attest nonce
    (s, ⟨Sc.DONE, [], b ++ bytesBE 96 (Config.ecdsaSign s.otp.identityKey (Config.sha384 b)).toNat⟩)

/-! ## Debug unlock (R454) -/

/-- The answer is signed by the owner, or in FIELD with a Belentah key that is not revoked, over the challenge, the serial
number and the scope. -/
def Otp.unlockOk (o : Otp) (ch : BitVec 384) (a : UnlockAnswer) : Bool :=
  let dg := Config.sha384 (bytesBE 48 ch.toNat ++ bytesLE 8 o.serial.toNat ++ [BitVec.ofNat 8 a.scope])
  (a.scope == 1 || a.scope == 2) && (match o.lifecycle, o.ownerSlot with
    | 2, some i => Config.ecdsaVerify (bytesBE 48 (o.owner.get 0 i).toNat) dg a.sig
    | 2, none => false
    | _, _ => (List.range 4).any fun i => !bitN o.keyRevoked i && Config.ecdsaVerify [BitVec.ofNat 8 i] dg a.sig)

/-- One element of the committed set written on its own, over the older copy. -/
def Params.commitOne (p : Params) (key : Nat) (v : Int) : Params :=
  ({ p with active := p.active.set key v } : Params).store (p.committed.vals.set key v)

/-- What a right answer opens: the debug window and JTAG, or sys.lock_at_boot set to OFF and committed. -/
def Dev.unlocked (d : Dev) (scope : Nat) : Dev :=
  let d := if scope = 1 then { d with sec := { d.sec with window := true, jtag := true } }
    else { d with par := d.par.commitOne (pkey P.sys_lock_at_boot 0) 0 }
  d.raise Ev.SEC_UNLOCK scope

/-- DBG_UNLOCK issues a challenge, or takes the one answer to it. -/
def execDbgUnlock (t : Nat) (c : CmdRef) (answer : Option UnlockAnswer) (s : State) : Answer :=
  s.updAll t true fun s => s.runCmd c 0x0108 fun s =>
    let d := s.dev
    match answer, d.sec.challenge with
    | none, _ =>
      let ch := Config.challenge d.sec.challenges
      ({ s with dev := { d with sec := { d.sec with challenge := some ch, challengeAt := d.clk, challenges := d.sec.challenges + 1 } } },
       ⟨Sc.DONE, [], bytesBE 48 ch.toNat⟩)
    | some a, some ch =>
      let s := { s with dev := { d with sec := { d.sec with challenge := none } } }
      if d.clk < d.sec.challengeAt + ticksOfS 60 ∧ s.otp.unlockOk ch a then ({ s with dev := s.dev.unlocked a.scope }, stRes Sc.DONE)
      else (s.unlockFailed, stRes Sc.STATE)
    | some _, none => (s.unlockFailed, stRes Sc.STATE)

/-- A challenge expires 60 s after it was issued. -/
def execChallengeExpiry (t : Nat) (s : State) : Answer :=
  s.upd t true fun _ d =>
    if d.sec.challengeAt + ticksOfS 60 ≤ d.clk then { d with sec := { d.sec with challenge := none } } else d

end Sys2Proof.Machine
end

