-- ==== Sys2Proof/Machine/Dispatch.lean ====
section
/-!
DEFINITION. Machine/Dispatch.lean: the meaning of each command, one arm per constructor of Instr.
-/
namespace Sys2Proof.Machine

open Sys2Proof

/-- The effect of a command on everything but the queue of waiting commands. -/
def exec (i : Instr) (s : State) : Host.Outcome State Fault Refusal :=
  match i with
  | .powerUp t => Sys2Proof.Machine.execPowerUp t s
  | .vinCoreUndervoltage t => Sys2Proof.Machine.execVinCoreUndervoltage t s
  | .rootPllLock t => Sys2Proof.Machine.execRootPllLock t s
  | .refclkFault t => Sys2Proof.Machine.execRefclkFault t s
  | .resetLAssert t withPwrfail => Sys2Proof.Machine.execResetLAssert t withPwrfail s
  | .resetLRelease t b => Sys2Proof.Machine.execResetLRelease t b s
  | .bootOperational t => Sys2Proof.Machine.execBootOperational t s
  | .bootTimeout t => Sys2Proof.Machine.execBootTimeout t s
  | .pwrfailAssert t => Sys2Proof.Machine.execPwrfailAssert t s
  | .finalCommitDone t works => Sys2Proof.Machine.execFinalCommitDone t works s
  | .pwrfailRelease t => Sys2Proof.Machine.execPwrfailRelease t s
  | .journalCommit t works => Sys2Proof.Machine.execJournalCommit t works s
  | .fatalFault t cause arg => Sys2Proof.Machine.execFatalFault t cause arg s
  | .coreWatchdogExpiry t core => Sys2Proof.Machine.execCoreWatchdogExpiry t core s
  | .castWriteDone t b => Sys2Proof.Machine.execCastWriteDone t b s
  | .sramCorrectedError t mem => Sys2Proof.Machine.execSramCorrectedError t mem s
  | .sramDoubleError t mem => Sys2Proof.Machine.execSramDoubleError t mem s
  | .dramError t page corrected user => Sys2Proof.Machine.execDramError t page corrected user s
  | .dramPageDecay t => Sys2Proof.Machine.execDramPageDecay t s
  | .dramScrub t => Sys2Proof.Machine.execDramScrub t s
  | .tamperSource t row present => Sys2Proof.Machine.execTamperSource t row present s
  | .challengeExpiry t => Sys2Proof.Machine.execChallengeExpiry t s
  | .safetyStartupTestDone t ch cfg pass => Sys2Proof.Machine.execSafetyStartupTestDone t ch cfg pass s
  | .safetyInputChange t ch pin high => Sys2Proof.Machine.execSafetyInputChange t ch pin high s
  | .inputFilterAccept t ch pin => Sys2Proof.Machine.execInputFilterAccept t ch pin s
  | .safetyBlockFrameStart t port => Sys2Proof.Machine.execSafetyBlockFrameStart t port s
  | .discrepancyLatch t pair => Sys2Proof.Machine.execDiscrepancyLatch t pair s
  | .channelBDiscrepancy t pair => Sys2Proof.Machine.execChannelBDiscrepancy t pair s
  | .srstStuck t ch b => Sys2Proof.Machine.execSrstStuck t ch b s
  | .warmRestart t => Sys2Proof.Machine.execWarmRestart t s
  | .edmTimeout t => Sys2Proof.Machine.execEdmTimeout t s
  | .readbackFault t output b => Sys2Proof.Machine.execReadbackFault t output b s
  | .soutTestPulse t output b followed => Sys2Proof.Machine.execSoutTestPulse t output b followed s
  | .holdEstablish t => Sys2Proof.Machine.execHoldEstablish t s
  | .safecfgReread t ch cfg => Sys2Proof.Machine.execSafecfgReread t ch cfg s
  | .crossMonitorExchange t aHeard bHeard => Sys2Proof.Machine.execCrossMonitorExchange t aHeard bHeard s
  | .lockstepMismatch t => Sys2Proof.Machine.execLockstepMismatch t s
  | .clockCrossCheckFail t perKHz isoKHz => Sys2Proof.Machine.execClockCrossCheckFail t perKHz isoKHz s
  | .blockReadbackCheck t => Sys2Proof.Machine.execBlockReadbackCheck t s
  | .backgroundMarch t pass => Sys2Proof.Machine.execBackgroundMarch t pass s
  | .modulationCycleStart t k => Sys2Proof.Machine.execModulationCycleStart t k s
  | .pk4Task t g => Sys2Proof.Machine.execPk4Task t g s
  | .kbTask t arm => Sys2Proof.Machine.execKbTask t arm s
  | .dly4Task t g => Sys2Proof.Machine.execDly4Task t g s
  | .cap4Task t g => Sys2Proof.Machine.execCap4Task t g s
  | .keyBlockReceive t lane b crcOk => Sys2Proof.Machine.execKeyBlockReceive t lane b crcOk s
  | .keyExchangeDeadline t arm => Sys2Proof.Machine.execKeyExchangeDeadline t arm s
  | .twinFillDeadline t arm => Sys2Proof.Machine.execTwinFillDeadline t arm s
  | .countTask t arm => Sys2Proof.Machine.execCountTask t arm s
  | .rank4Task t g => Sys2Proof.Machine.execRank4Task t g s
  | .armrecTask t arm => Sys2Proof.Machine.execArmrecTask t arm s
  | .build4Task t g => Sys2Proof.Machine.execBuild4Task t g s
  | .bandTask t arm => Sys2Proof.Machine.execBandTask t arm s
  | .digestTask t => Sys2Proof.Machine.execDigestTask t s
  | .lawTask t n => Sys2Proof.Machine.execLawTask t n s
  | .recTask t n lost => Sys2Proof.Machine.execRecTask t n lost s
  | .reedSteal t reed n => Sys2Proof.Machine.execReedSteal t reed n s
  | .commandDeadline t => Sys2Proof.Machine.execCommandDeadline t s
  | .fallbackGeneratorFrame t port => Sys2Proof.Machine.execFallbackGeneratorFrame t port s
  | .ctrlFrameSend t port => Sys2Proof.Machine.execCtrlFrameSend t port s
  | .taskWatchdog t reed x => Sys2Proof.Machine.execTaskWatchdog t reed x s
  | .selftestSlot t pass => Sys2Proof.Machine.execSelftestSlot t pass s
  | .uplinkDataFrame t port arr line => Sys2Proof.Machine.execUplinkDataFrame t port arr line s
  | .uplinkRespFrame t port arr dataArr line => Sys2Proof.Machine.execUplinkRespFrame t port arr dataArr line s
  | .uplinkFrameInvalid t u => Sys2Proof.Machine.execUplinkFrameInvalid t u s
  | .uplinkFrameMissing t port => Sys2Proof.Machine.execUplinkFrameMissing t port s
  | .portRetireFill t port => Sys2Proof.Machine.execPortRetireFill t port s
  | .portStageExit t port => Sys2Proof.Machine.execPortStageExit t port s
  | .portStageTimeout t port => Sys2Proof.Machine.execPortStageTimeout t port s
  | .retrainTimeout t port => Sys2Proof.Machine.execRetrainTimeout t port s
  | .phaseTrackStep t port => Sys2Proof.Machine.execPhaseTrackStep t port s
  | .portRealign t port => Sys2Proof.Machine.execPortRealign t port s
  | .healthWarnPersist t port => Sys2Proof.Machine.execHealthWarnPersist t port s
  | .bypassUnconfirmed t port => Sys2Proof.Machine.execBypassUnconfirmed t port s
  | .cellBlockRelease t epoch => Sys2Proof.Machine.execCellBlockRelease t epoch s
  | .refBlockRelease t epoch rmd => Sys2Proof.Machine.execRefBlockRelease t epoch rmd s
  | .streamPerm t ch => Sys2Proof.Machine.execStreamPerm t ch s
  | .bankSwapStart t ch => Sys2Proof.Machine.execBankSwapStart t ch s
  | .repairRequestSend t epoch => Sys2Proof.Machine.execRepairRequestSend t epoch s
  | .repairDeadline t epoch => Sys2Proof.Machine.execRepairDeadline t epoch s
  | .sarConversionEnd t adc raw checkOk => Sys2Proof.Machine.execSarConversionEnd t adc raw checkOk s
  | .sarPassStart t n => Sys2Proof.Machine.execSarPassStart t n s
  | .sarPassEnd t n => Sys2Proof.Machine.execSarPassEnd t n s
  | .sarRefSettled t => Sys2Proof.Machine.execSarRefSettled t s
  | .sarCalComplete t adc => Sys2Proof.Machine.execSarCalComplete t adc s
  | .wantReceive t lane masks => Sys2Proof.Machine.execWantReceive t lane masks s
  | .refRecReceive t lane b => Sys2Proof.Machine.execRefRecReceive t lane b s
  | .armRecReceive t lane r => Sys2Proof.Machine.execArmRecReceive t lane r s
  | .droneReceive t lane b => Sys2Proof.Machine.execDroneReceive t lane b s
  | .hbFrameReceive t f => Sys2Proof.Machine.execHbFrameReceive t f s
  | .refFwdReceive t lane epoch m bits => Sys2Proof.Machine.execRefFwdReceive t lane epoch m bits s
  | .repairReqReceive t lane low mask => Sys2Proof.Machine.execRepairReqReceive t lane low mask s
  | .repairDataReceive t lane low r => Sys2Proof.Machine.execRepairDataReceive t lane low r s
  | .timeBlockSend t port frac => Sys2Proof.Machine.execTimeBlockSend t port frac s
  | .timeBlockReceive t lane tRx m => Sys2Proof.Machine.execTimeBlockReceive t lane tRx m s
  | .sourceLossTimeout t => Sys2Proof.Machine.execSourceLossTimeout t s
  | .rootListenExpiry t => Sys2Proof.Machine.execRootListenExpiry t s
  | .rootClaim t => Sys2Proof.Machine.execRootClaim t s
  | .ctWrapNear t => Sys2Proof.Machine.execCtWrapNear t s
  | .timeRelaySend t => Sys2Proof.Machine.execTimeRelaySend t s
  | .timeRelayReceive t tRx m => Sys2Proof.Machine.execTimeRelayReceive t tRx m s
  | .ptpSyncReceive t port1 offset rate path => Sys2Proof.Machine.execPtpSyncReceive t port1 offset rate path s
  | .announceReceive t port1 best portNumber removed => Sys2Proof.Machine.execAnnounceReceive t port1 best portNumber removed s
  | .announceTimeout t => Sys2Proof.Machine.execAnnounceTimeout t s
  | .holdoverLimit t => Sys2Proof.Machine.execHoldoverLimit t s
  | .helloReceive t lane ident => Sys2Proof.Machine.execHelloReceive t lane ident s
  | .delayBlockSend t lane frac => Sys2Proof.Machine.execDelayBlockSend t lane frac s
  | .delayBlockReceive t lane tRx m => Sys2Proof.Machine.execDelayBlockReceive t lane tRx m s
  | .linkStateReceive t lane change routes => Sys2Proof.Machine.execLinkStateReceive t lane change routes s
  | .ackReceive t port seq nak => Sys2Proof.Machine.execAckReceive t port seq nak s
  | .ackTimeout t port => Sys2Proof.Machine.execAckTimeout t port s
  | .laneCmdRetrain t lane => Sys2Proof.Machine.execLaneCmdRetrain t lane s
  | .laneCmdDown t lane => Sys2Proof.Machine.execLaneCmdDown t lane s
  | .laneCmdIdleReq t lane => Sys2Proof.Machine.execLaneCmdIdleReq t lane s
  | .fabricBadBlock t lane kind => Sys2Proof.Machine.execFabricBadBlock t lane kind s
  | .laneLockLoss t lane => Sys2Proof.Machine.execLaneLockLoss t lane s
  | .laneSignalDetect t lane => Sys2Proof.Machine.execLaneSignalDetect t lane s
  | .laneStageExit t lane inverted => Sys2Proof.Machine.execLaneStageExit t lane inverted s
  | .laneStageTimeout t lane => Sys2Proof.Machine.execLaneStageTimeout t lane s
  | .fastRetrainTimeout t lane => Sys2Proof.Machine.execFastRetrainTimeout t lane s
  | .retrainFailTimeout t lane => Sys2Proof.Machine.execRetrainFailTimeout t lane s
  | .linkBringupTimeout t port => Sys2Proof.Machine.execLinkBringupTimeout t port s
  | .laneIdleTimer t lane => Sys2Proof.Machine.execLaneIdleTimer t lane s
  | .elasticBlockReceive t lane skip pads fill slip => Sys2Proof.Machine.execElasticBlockReceive t lane skip pads fill slip s
  | .skipSend t lane => Sys2Proof.Machine.execSkipSend t lane s
  | .freqEstimate t lane => Sys2Proof.Machine.execFreqEstimate t lane s
  | .messageUnitReceive t lane seq u => Sys2Proof.Machine.execMessageUnitReceive t lane seq u s
  | .tunnelCommandReceive t gw qp level d => Sys2Proof.Machine.execTunnelCommandReceive t gw qp level d s
  | .tunnelReplyReceive t qp tag dev r => Sys2Proof.Machine.execTunnelReplyReceive t qp tag dev r s
  | .tunnelTimeout t qp tag => Sys2Proof.Machine.execTunnelTimeout t qp tag s
  | .twinCmdReceive t u => Sys2Proof.Machine.execTwinCmdReceive t u s
  | .healthReportSend t => Sys2Proof.Machine.execHealthReportSend t s
  | .healthReportReceive t r => Sys2Proof.Machine.execHealthReportReceive t r s
  | .paramUnitReceive t vals => Sys2Proof.Machine.execParamUnitReceive t vals s
  | .twinApplyReceive t u => Sys2Proof.Machine.execTwinApplyReceive t u s
  | .twinApplyTimeout t => Sys2Proof.Machine.execTwinApplyTimeout t s
  | .stateUnitReceive t m => Sys2Proof.Machine.execStateUnitReceive t m s
  | .acknowledgementReceive t a => Sys2Proof.Machine.execAcknowledgementReceive t a s
  | .cancelUnitReceive t apply cause => Sys2Proof.Machine.execCancelUnitReceive t apply cause s
  | .blockRequestReceive t m => Sys2Proof.Machine.execBlockRequestReceive t m s
  | .blockRequestSend t => Sys2Proof.Machine.execBlockRequestSend t s
  | .convStateDecide t => Sys2Proof.Machine.execConvStateDecide t s
  | .triggerBlockReceive t lane m => Sys2Proof.Machine.execTriggerBlockReceive t lane m s
  | .joinTimeout t => Sys2Proof.Machine.execJoinTimeout t s
  | .snapshotComplete t x => Sys2Proof.Machine.execSnapshotComplete t x s
  | .syncWindowExpiry t => Sys2Proof.Machine.execSyncWindowExpiry t s
  | .lawSnapshot t => Sys2Proof.Machine.execLawSnapshot t s
  | .feedbackHoldExpiry t => Sys2Proof.Machine.execFeedbackHoldExpiry t s
  | .followingError t ch => Sys2Proof.Machine.execFollowingError t ch s
  | .lawSendDeadline t => Sys2Proof.Machine.execLawSendDeadline t s
  | .identEnd t => Sys2Proof.Machine.execIdentEnd t s
  | .recordSlotDecision t => Sys2Proof.Machine.execRecordSlotDecision t s
  | .recordComplete t => Sys2Proof.Machine.execRecordComplete t s
  | .busPulseSend t line => Sys2Proof.Machine.execBusPulseSend t line s
  | .busEdgeReceive t line width rx => Sys2Proof.Machine.execBusEdgeReceive t line width rx s
  | .queuePushEnd t q prod payload => Sys2Proof.Machine.execQueuePushEnd t q prod payload s
  | .queuePop t q wait => Sys2Proof.Machine.execQueuePop t q wait s
  | .waitPopComplete t q => Sys2Proof.Machine.execWaitPopComplete t q s
  | .producerStallResume t q prod => Sys2Proof.Machine.execProducerStallResume t q prod s
  | .fcInChange t n high => Sys2Proof.Machine.execFcInChange t n high s
  | .descriptorFetch t qp d dmaOk => Sys2Proof.Machine.execDescriptorFetch t qp d dmaOk s
  | .completionWrite t gw qp dmaOk => Sys2Proof.Machine.execCompletionWrite t gw qp dmaOk s
  | .interruptSignal t qp => Sys2Proof.Machine.execInterruptSignal t qp s
  | .pcieReset t => Sys2Proof.Machine.execPcieReset t s
  | .tlsHandshakeDone t port1 role remote => Sys2Proof.Machine.execTlsHandshakeDone t port1 role remote s
  | .tlsHandshakeFail t => Sys2Proof.Machine.execTlsHandshakeFail t s
  | .sessionFrameReceive t sess f => Sys2Proof.Machine.execSessionFrameReceive t sess f s
  | .pingReceive t sess => Sys2Proof.Machine.execPingReceive t sess s
  | .sessionIdleTimeout t sess => Sys2Proof.Machine.execSessionIdleTimeout t sess s
  | .sessionClose t sess => Sys2Proof.Machine.execSessionClose t sess s
  | .sqTailWrite t qp v => Sys2Proof.Machine.execSqTailWrite t qp v s
  | .cqHeadWrite t qp v => Sys2Proof.Machine.execCqHeadWrite t qp v s
  | .qpEnable t qp v => Sys2Proof.Machine.execQpEnable t qp v s
  | .qpDisable t qp v => Sys2Proof.Machine.execQpDisable t qp v s
  | .wakeWrite t => Sys2Proof.Machine.execWakeWrite t s
  | .evtAckWrite t v => Sys2Proof.Machine.execEvtAckWrite t v s
  | .tbcLoRead t => Sys2Proof.Machine.execTbcLoRead t s
  | .chresLoRead t ch => Sys2Proof.Machine.execChresLoRead t ch s
  | .healthRegisterLatchRead t twin => Sys2Proof.Machine.execHealthRegisterLatchRead t twin s
  | .pairLoRead t addr => Sys2Proof.Machine.execPairLoRead t addr s
  | .rcFieldRead t addr => Sys2Proof.Machine.execRcFieldRead t addr s
  | .registerWrite t addr v => Sys2Proof.Machine.execRegisterWrite t addr v s
  | .barInvalidAccess t addr write => Sys2Proof.Machine.execBarInvalidAccess t addr write s
  | .nop t c => Sys2Proof.Machine.execNop t c s
  | .devInfo t c => Sys2Proof.Machine.execDevInfo t c s
  | .eventRead t c first count => Sys2Proof.Machine.execEventRead t c first count s
  | .journalRead t c offset length => Sys2Proof.Machine.execJournalRead t c offset length s
  | .healthRead t c array first count => Sys2Proof.Machine.execHealthRead t c array first count s
  | .convState t c target => Sys2Proof.Machine.execConvState t c target s
  | .modePower t c target latency => Sys2Proof.Machine.execModePower t c target latency s
  | .modeTest t c m => Sys2Proof.Machine.execModeTest t c m s
  | .selftestComplete t passMask => Sys2Proof.Machine.execSelftestComplete t passMask s
  | .sysReset t c full b => Sys2Proof.Machine.execSysReset t c full b s
  | .paramGet t c id index count type source => Sys2Proof.Machine.execParamGet t c id index count type source s
  | .paramSet t c id index count type values => Sys2Proof.Machine.execParamSet t c id index count type values s
  | .paramCommit t c => Sys2Proof.Machine.execParamCommit t c s
  | .paramDiscard t c => Sys2Proof.Machine.execParamDiscard t c s
  | .paramLock t c => Sys2Proof.Machine.execParamLock t c s
  | .paramList t c first count => Sys2Proof.Machine.execParamList t c first count s
  | .cellRetire t c arm seg port => Sys2Proof.Machine.execCellRetire t c arm seg port s
  | .cellRestore t c arm seg port => Sys2Proof.Machine.execCellRestore t c arm seg port s
  | .measCoefLoad t c slot words => Sys2Proof.Machine.execMeasCoefLoad t c slot words s
  | .measBankSwap t c ch slot start => Sys2Proof.Machine.execMeasBankSwap t c ch slot start s
  | .measSync t c mask start => Sys2Proof.Machine.execMeasSync t c mask start s
  | .sarCal t c adc ch gain full target => Sys2Proof.Machine.execSarCal t c adc ch gain full target s
  | .ctlSource t c host => Sys2Proof.Machine.execCtlSource t c host s
  | .ctlSetpoint t c ch target => Sys2Proof.Machine.execCtlSetpoint t c ch target s
  | .ctlRefPush t c recs => Sys2Proof.Machine.execCtlRefPush t c recs s
  | .ctlIdent t c apply => Sys2Proof.Machine.execCtlIdent t c apply s
  | .cycReedRestore t c reed pass => Sys2Proof.Machine.execCycReedRestore t c reed pass s
  | .fabLaneRestore t c lane => Sys2Proof.Machine.execFabLaneRestore t c lane s
  | .dupHandover t c => Sys2Proof.Machine.execDupHandover t c s
  | .dupResync t c => Sys2Proof.Machine.execDupResync t c s
  | .timeWallStep t c => Sys2Proof.Machine.execTimeWallStep t c s
  | .recArm t c mode => Sys2Proof.Machine.execRecArm t c mode s
  | .recDisarm t c mode => Sys2Proof.Machine.execRecDisarm t c mode s
  | .recForce t c => Sys2Proof.Machine.execRecForce t c s
  | .recRead t c id offset length => Sys2Proof.Machine.execRecRead t c id offset length s
  | .recRelease t c id => Sys2Proof.Machine.execRecRelease t c id s
  | .recList t c first count => Sys2Proof.Machine.execRecList t c first count s
  | .queInfo t c q => Sys2Proof.Machine.execQueInfo t c q s
  | .quePop t c q items bufLen => Sys2Proof.Machine.execQuePop t c q items bufLen s
  | .quePush t c q count data => Sys2Proof.Machine.execQuePush t c q count data s
  | .queFlush t c q => Sys2Proof.Machine.execQueFlush t c q s
  | .safeStatus t c => Sys2Proof.Machine.execSafeStatus t c s
  | .fwStage t c offset data => Sys2Proof.Machine.execFwStage t c offset data s
  | .fwVerify t c => Sys2Proof.Machine.execFwVerify t c s
  | .fwActivate t c b => Sys2Proof.Machine.execFwActivate t c b s
  | .secAttest t c nonce => Sys2Proof.Machine.execSecAttest t c nonce s
  | .secIdentity t c => Sys2Proof.Machine.execSecIdentity t c s
  | .secAlarmClear t c level => Sys2Proof.Machine.execSecAlarmClear t c level s
  | .castRead t c slot offset length => Sys2Proof.Machine.execCastRead t c slot offset length s
  | .castClear t c => Sys2Proof.Machine.execCastClear t c s
  | .dbgUnlock t c answer => Sys2Proof.Machine.execDbgUnlock t c answer s
  | .wakeSource t src => Sys2Proof.Machine.execWakeSource t src s
  | .wakeComplete t => Sys2Proof.Machine.execWakeComplete t s
  | .restTimerExpiry t => Sys2Proof.Machine.execRestTimerExpiry t s
  | .pmbusPoll t reg answer => Sys2Proof.Machine.execPmbusPoll t reg answer s
  | .domainFault t dom diff => Sys2Proof.Machine.execDomainFault t dom diff s
  | .domainRestore t dom => Sys2Proof.Machine.execDomainRestore t dom s
  | .vinCoreLoss t => Sys2Proof.Machine.execVinCoreLoss t s
  | .portReceiverLockLoss t port => Sys2Proof.Machine.execPortReceiverLockLoss t port s
  | .ackSend t port => Sys2Proof.Machine.execAckSend t port s
  | .ioRailsInRange t b => Sys2Proof.Machine.execIoRailsInRange t b s

end Sys2Proof.Machine
end

