-- ==== Sys2Proof/Machine/Step.lean ====
section
/-!
DEFINITION. Machine/Step.lean: one step takes the command at the front of the queue; with an empty queue one TBASE tick
of own time passes (DESIGN CHOICE, log entry 5).
-/
namespace Sys2Proof.Machine

open Sys2Proof

/-- The block idles for one tick. -/
def State.idle (s : State) : State := s.at (s.dev.clk + 1)

/-- A step: the command at the front of the queue, run with the queue's rest. -/
def step (s : State) : Host.Outcome State Fault Refusal :=
  match s.pending with
  | [] => .next s.idle
  | c :: r => exec c { s with pending := r }

/-- The state with the command that a word spells put at the front of the queue; unchanged where it spells none. -/
def State.withFetchWord (s : State) (nbits w : Nat) : State :=
  match decodeTableWord nbits w with
  | some c => { s with pending := c :: s.pending }
  | none => s

end Sys2Proof.Machine
end

