-- ==== Sys2Proof/Safety.lean ====
section
/-!
DEFINITION. Safety.lean: the terms claims are made in: a command that completes, what a command may change, an event, a
host command that answers, and the invariants of a safe run.
-/
namespace Sys2Proof.Machine

open Sys2Proof

/-- Command `c` on `s` answers a next state, of which `P` holds. -/
def Runs (c : Instr) (s : State) (P : State → Prop) : Prop := ∃ s', exec c s = .next s' ∧ P s'

/-- The parts of the machine beside its own time and the commands that wait. -/
inductive Part where
  | safe | otp | flash | openIx | out | log | boot | flt | sec | par | host | que | tim | mode | fab | cyc | meas | cp | down | twin
  | sar | ctl | acq
  deriving DecidableEq, Repr

/-- A part is as before. -/
def Part.kept (s s' : State) : Part → Prop
  | .safe => s'.safe = s.safe
  | .otp => s'.otp = s.otp
  | .flash => s'.flash = s.flash
  | .openIx => s'.dev.openIx = s.dev.openIx
  | .out => s'.dev.out = s.dev.out
  | .log => s'.dev.log = s.dev.log
  | .boot => s'.dev.boot = s.dev.boot
  | .flt => s'.dev.flt = s.dev.flt
  | .sec => s'.dev.sec = s.dev.sec
  | .par => s'.dev.par = s.dev.par
  | .host => s'.dev.host = s.dev.host
  | .que => s'.dev.que = s.dev.que
  | .tim => s'.dev.tim = s.dev.tim
  | .mode => s'.dev.mode = s.dev.mode
  | .fab => s'.dev.fab = s.dev.fab
  | .cyc => s'.dev.cyc = s.dev.cyc
  | .meas => s'.dev.meas = s.dev.meas
  | .cp => s'.dev.cp = s.dev.cp
  | .down => s'.dev.down = s.dev.down
  | .twin => s'.dev.twin = s.dev.twin
  | .sar => s'.dev.sar = s.dev.sar
  | .ctl => s'.dev.ctl = s.dev.ctl
  | .acq => s'.dev.acq = s.dev.acq

/-- The frame of a command at instant `t`: beside what the transmitters have begun to send by then (`State.at`), it changes no
part but those of `ps`, its own time is the later of the two, and the commands that wait are as before. -/
def Only (ps : List Part) (t : Nat) (s s' : State) : Prop :=
  s'.pending = s.pending ∧ s'.dev.clk = max s.dev.clk t ∧ ∀ p : Part, p ∉ ps → p.kept (s.at t) s'

/-- One event has been logged, with this code and four-byte argument (R459, R460): an entry of the next sequence number at
the end of the journal buffer. -/
def Logged (code arg : Nat) (s s' : State) : Prop :=
  ∃ e : Entry, s'.dev.log.buffer = s.dev.log.buffer ++ [e] ∧ e.code = code ∧ e.sev = severity code
    ∧ e.arg = BitVec.ofNat 32 arg ∧ e.seq = s.dev.log.nextSeq ∧ s'.dev.log.nextSeq = s.dev.log.nextSeq + 1

/-- The event of this code has been logged, among what else the command logged. -/
def Raised (code : Nat) (s s' : State) : Prop :=
  ∃ es : List Entry, s'.dev.log.buffer = s.dev.log.buffer ++ es ∧ ∃ e ∈ es, e.code = code

/-- The block waits for a lane of port `p` (R276). -/
def Waits (p : Nat) (b : FabBlock) (s' : State) : Prop := ∃ x ∈ (s'.dev.link p).tx, x.blk = b

/-- The block has started on lane `n`. -/
def Sent (n : Nat) (b : FabBlock) (s' : State) : Prop := ∃ start line, Out.fab n start b line ∈ s'.dev.out

/-- The device has made a MESSAGE unit of this kind and body for the device `dest`. -/
def Made (kind : Nat) (dest : Option Nat) (body : FabBody) (s' : State) : Prop :=
  ∃ u : FabUnit, Out.made u ∈ s'.dev.out ∧ u.bulk = false ∧ u.kind = kind ∧ u.dest = dest ∧ u.body = body

/-- A host command may start: no fence holds it back, and no check refuses it (R398, R399). -/
def Dev.accepts (d : Dev) (c : CmdRef) (op : Nat) : Prop :=
  fenceWaits c d.host.inflight false = false ∧ d.precheck c op = none ∧ c.xfer = .ok

/-- The command has completed with result `r`: it waits in the in-flight list for its completion to be written (R396). -/
def Answered (c : CmdRef) (op : Nat) (r : CmdResult) (s s' : State) : Prop :=
  s'.dev.host = { s.dev.host with inflight := setResult c op r s.dev.host.inflight }

/-! ## The safety unit (Table 13-3) -/

/-- The device's own time after a command at instant `t`. -/
def State.now (s : State) (t : Nat) : Nat := max s.dev.clk t

/-- SAFE_FAULT with a cause: both channels in it, both block requests set, SOUT0, SOUT1, SOUT3 and SAFE_OK low. -/
def Safe.Faulted (u : Safe) (cause idx : Nat) : Prop :=
  u.a.st = 2 ∧ u.b.st = 2 ∧ u.a.request = true ∧ u.b.request = true ∧ u.safeOk = false ∧ u.cause = cause ∧ u.causeIdx = idx
    ∧ ∀ i ∈ [0, 1, 3, 4, 5, 7], bitN u.out i = false

/-- NORMAL: both channels in it with their requests clear (where the start-up has released them), SOUT3 and SAFE_OK high,
SOUT0 and SOUT1 high with the trip enabled. -/
def Safe.Normal (u : Safe) : Prop :=
  u.a.st = 0 ∧ u.b.st = 0 ∧ u.a.request = (!u.pllLocked || !u.a.tested) ∧ u.b.request = (!u.b.tested) ∧ u.safeOk = true
    ∧ ∀ i ∈ [0, 1, 4, 5], bitN u.out i = u.tripOn ∧ bitN u.out 3 = true ∧ bitN u.out 7 = true

/-- A fault that only the loss of VIN_CORE ends is in force (Table 13-6). -/
def Safe.lasting (u : Safe) : Prop := u.st = 2 ∧ u.recovery = none

/-- Table 13-3 for the block requests: a channel's is set out of NORMAL and before its start-up test, channel A's before the root PLL
has locked too, and clear else (R419, R420, R425). -/
def Safe.Blocks (u : Safe) : Prop :=
  u.a.request = (u.a.st != 0 || !u.pllLocked || !u.a.tested) ∧ u.b.request = (u.b.st != 0 || !u.b.tested)

/-! ## Invariants -/

/-- What every step keeps: the block requests of Table 13-3, the staging area in its canonical form, and an anti-rollback
counter within its 256 OTP bits (R449). -/
def State.Inv (s : State) : Prop := s.safe.Blocks ∧ memWf s.flash.staged = true ∧ s.otp.rollback ≤ 256

/-- Both keys of the OTP read as all ones, and the life cycle is KILLED (R456). -/
def Otp.KeysGone (o : Otp) : Prop := o.rootSecret = BitVec.allOnes 256 ∧ o.fwKey = BitVec.allOnes 256 ∧ o.lifecycle = 3

/-- What no step turns back: own time, and what the OTP has programmed (R449, R451, R456). -/
def State.OneWay (s s' : State) : Prop :=
  s.dev.clk ≤ s'.dev.clk ∧ s.otp.rollback ≤ s'.otp.rollback ∧ (s.otp.erased = true → s'.otp.erased = true)
    ∧ (s.otp.KeysGone → s'.otp.KeysGone) ∧ s.otp.lifecycle ≤ s'.otp.lifecycle
    ∧ (∀ i, bitN s.otp.ownerRevoked i = true → bitN s'.otp.ownerRevoked i = true) ∧ s'.otp.serial = s.otp.serial

end Sys2Proof.Machine
end

