-- ==== Sys2Proof/Certificates/Slice0/Obligations.lean ====
section
/-!
DEFINITION. Certificates/Slice0/Obligations.lean: the statements for the provers. Every statement is about any state, also
one that no run reaches, unless a hypothesis says otherwise.
-/
open Sys2Proof Sys2Proof.Machine

/-! ## Steps -/

/-- A step runs the command at the front of the queue on the state with the queue's rest. The model's choice in it: log entry 7.
-/
def Obligations.StepRunsTheFrontCommand : Prop :=
  ∀ (s : State) (c : Instr) (r : List Instr), s.pending = c :: r → step s = exec c { s with pending := r }

/-- R329, R489, R499: POWER_UP brings every domain up with its clamps released and, at first power, sets both block requests; an
undervoltage switches off every domain but PD0 and PD1 and leaves the safety unit; the loss of VIN_CORE clears the safety
unit and the boot count, and leaves the OTP. The model's choices in it: log entries 5 and 64. -/
def Obligations.SupplyComesAndGoes : Prop :=
  ∀ (s : State) (t : Nat),
    (s.dev.boot.vin = false → Runs (.powerUp t) s fun s' =>
      s'.dev.boot = { s.dev.boot with vin := true }
        ∧ (∀ n, n < 12 → (s'.dev.mode.doms.get {} n).st = .on
          ∧ ((s.dev.mode.doms.get {} n).st ≠ .on → (s'.dev.mode.doms.get {} n).clamps = false))
        ∧ (s.safe.powered = false → s'.safe = { s.safe with powered := true, upAt := s.now t, reqAt := some (s.now t) })
        ∧ (s.safe.powered = true → s'.safe = s.safe) ∧ Only [.safe, .boot, .mode] t s s') ∧
    (s.dev.boot.vin = true → Runs (.vinCoreUndervoltage t) s fun s' =>
      s'.safe = s.safe ∧ s'.otp = s.otp ∧ s'.dev.boot.vin = false ∧ s'.dev.boot.started = false
        ∧ s'.dev.boot.count = s.dev.boot.count ∧ s'.dev.sec.alarm = s.dev.sec.alarm ∧ s'.dev.flt.cast0 = none ∧ s'.dev.flt.cast1 = none
        ∧ s'.dev.log.ring = [] ∧ s'.dev.log.jmem = s.dev.log.jmem ∧ s'.dev.log.nextSeq = s.dev.log.nextSeq ∧ s'.flash.staged = []
        ∧ (∀ n, 2 ≤ n → n < 12 → (s'.dev.mode.doms.get {} n).st = .off ∧ (s'.dev.mode.doms.get {} n).clamps = true)
        ∧ s'.dev.mode.uvEvents = s.dev.mode.uvEvents + 1 ∧ s'.pending = s.pending) ∧
    Runs (.vinCoreLoss t) s fun s' =>
      s'.safe = {} ∧ s'.otp = s.otp ∧ s'.dev.boot = {} ∧ s'.dev.mode = {} ∧ s'.dev.log.buffer = []
        ∧ s'.dev.log.jmem = s.dev.log.jmem ∧ s'.dev.sec.alarm = s.dev.sec.alarm ∧ s'.flash.slots = s.flash.slots
        ∧ s'.dev.par.copy0 = s.dev.par.copy0 ∧ s'.dev.par.copy1 = s.dev.par.copy1 ∧ s'.pending = s.pending

/-- R442, R444, R499, R527: RESET_L low resets the device at once, or after the final commit that is being written; its release,
or the last rail coming into range, starts the ROM, which samples the straps and takes the image from the source that they
name. The model's choices in it: log entries 16, 63 and 64. -/
def Obligations.ResetPinsStartTheRom : Prop :=
  ∀ (s : State) (t : Nat), s.dev.boot.vin = true →
    (s.dev.log.running = false → ∀ w, w = false ∨ s.dev.boot.pwrfail = true →
      Runs (.resetLAssert t w) s fun s' =>
        s'.dev.boot.resetL = true ∧ s'.dev.boot.started = false ∧ s'.dev.boot.operational = false ∧ s'.dev.boot.count = s.dev.boot.count
          ∧ s'.dev.sec.alarm = s.dev.sec.alarm ∧ s'.dev.sec.window = false ∧ s'.dev.tim.running = false ∧ s'.dev.par.pending = []
          ∧ s'.dev.flt.cast0 = s.dev.flt.cast0 ∧ s'.safe = s.safe ∧ s'.otp = s.otp ∧ s'.flash.slots = s.flash.slots
          ∧ s'.dev.out = (s.at t).dev.out ∧ s'.pending = s.pending) ∧
    (s.dev.log.running = true → ∀ w, Runs (.resetLAssert t w) s fun s' =>
      s'.dev.boot = { s.dev.boot with resetL := true, resetWaits := true, releaseWaits := none } ∧ Only [.boot] t s s') ∧
    (∀ (b : BootInputs) (v : Nat), b.straps.length = 8 → strapValue b.straps = some v → b.refclk = true → b.ioRails = true →
      b.readsAgree = true → s.dev.boot.started = false → s.otp.erasing = false → s.otp.lifecycle ≠ 3 →
      let booted := fun (s' : State) => s'.dev.boot.started = true ∧ s'.dev.boot.began = s.now t ∧ s'.dev.boot.count = s.dev.boot.count + 1
        ∧ s'.dev.boot.twinSel = bitN v 0 ∧ s'.dev.boot.segId = fieldN v 1 4 ∧ s'.dev.boot.source = fieldN v 5 2 ∧ s'.safe = s.safe ∧ s'.otp = s.otp
      (s.dev.boot.resetWaits = false →
        (fieldN v 5 2 = 1 → Runs (.resetLRelease t b) s fun s' => booted s' ∧ s'.dev.boot.pcieBoot = true ∧ Only [.boot] t s s') ∧
        (fieldN v 5 2 = 3 → Runs (.resetLRelease t b) s fun s' => booted s' ∧ s'.dev.boot.halted = true
          ∧ s'.dev.out = (s.at t).dev.out ++ [.uart Ev.SYS_BOOT_FAIL] ∧ Only [.boot, .out] t s s') ∧
        (fieldN v 5 2 = 0 → ∀ m, s.flash.slots.find s.flash.active = some m → imageCheck s.otp m = none →
          s.dev.par.copy0.good = true → s.dev.par.copy1.good = true → b.dramTrained = true → b.journalTorn = false →
          Runs (.resetLRelease t b) s fun s' => booted s' ∧ s'.dev.boot.hasImage = true ∧ s'.dev.boot.slot = s.flash.active
            ∧ s'.dev.boot.fallback = s.dev.boot.fallback ∧ s'.dev.boot.sv = m.field 0xC 2 ∧ s'.dev.par.loaded = true
            ∧ s'.dev.par.active = (if s.dev.par.copy0.gen < s.dev.par.copy1.gen then s.dev.par.copy1.vals else s.dev.par.copy0.vals)
            ∧ s'.dev.log.nextSeq = s.dev.log.nextSeq ∧ s'.dev.log.works = b.journalWorks ∧ Only [.boot, .flt, .par, .log, .host] t s s') ∧
        (fieldN v 5 2 = 0 → s.flash.slots = [] → b.pcieTrains = false → Runs (.resetLRelease t b) s fun s' =>
          booted s' ∧ s'.dev.boot.halted = true ∧ s'.dev.boot.hasImage = s.dev.boot.hasImage)) ∧
      (s.dev.boot.resetL = false → fieldN v 5 2 = 1 → Runs (.ioRailsInRange t b) s fun s' =>
        booted s' ∧ s'.dev.boot.ioRails = true ∧ s'.dev.boot.pcieBoot = true ∧ Only [.boot] t s s') ∧
      (s.dev.boot.resetWaits = true → Runs (.resetLRelease t b) s fun s' =>
        s'.dev.boot = { s.dev.boot with resetL := false, ioRails := b.ioRails, releaseWaits := some b } ∧ Only [.boot] t s s'))

/-- R322, R407, R443, R449: the device that runs a verified image becomes operational, takes its parameters of the boot, brings
up its lanes and, where it is alone, its cell ports, and raises EV_SYS_BOOT; with sec.rollback_auto the anti-rollback counter
advances; 2.0 s without it end the boot. The model's choices in it: log entries 10, 54 and 138. -/
def Obligations.BootEndsOperationalOrFails : Prop :=
  ∀ (s : State) (t : Nat),
    (s.dev.mayOperate = true → s.advances = false → Runs (.bootOperational t) s fun s' =>
      s'.dev.boot = { s.dev.boot with operational := true } ∧ s'.dev.par = { s.dev.par with lock := s.dev.pv P.sys_lock_at_boot == 1 }
        ∧ s'.dev.mode.fnEnable = s.dev.pn P.mode_fn_enable ∧ Raised Ev.SYS_BOOT s s'
        ∧ (s.dev.boot.fallback = true → Raised Ev.SYS_BOOT_FALLBACK s s')
        ∧ s'.dev.twin.role = (if s.dev.duplex then .joining else .solo)
        ∧ (∀ n, n < 8 → (s'.dev.lane n).stage = if bitN s.dev.par.retLanes n then .retired else .detect)
        ∧ s'.safe = s.safe ∧ s'.otp = s.otp ∧ s'.flash = s.flash ∧ s'.dev.tim = s.dev.tim) ∧
    (s.dev.mayOperate = true → s.advances = true → Runs (.bootOperational t) s fun s' =>
      s'.dev.boot.operational = true ∧ s'.otp = { s.otp with rollback := min 256 s.dev.boot.sv }
        ∧ Raised Ev.SEC_ROLLBACK_ADV s s' ∧ s'.safe = s.safe ∧ s'.flash = s.flash) ∧
    (s.dev.boot.started = true → s.dev.boot.operational = false → s.dev.boot.failed = false →
      s.dev.boot.began + ticksOfMs 2000 ≤ s.now t → Runs (.bootTimeout t) s fun s' =>
        s'.dev.boot = { s.dev.boot with failed := true } ∧ Logged Ev.SYS_BOOT_FAIL 0 s s' ∧ Only [.boot, .log, .out] t s s')

/-- R29, R468, R469: a fatal fault stops frames, key blocks, drones and lease renewal, starts a cast and raises EV_SYS_FATAL with
its cause; a lost REFCLK sends no frame at all; the written cast fills slot 0, then slot 1, and the device halts with
sys.fatal_restart = HOLD. The model's choices in it: log entries 10, 39 and 101. -/
def Obligations.FatalFaultsStopTheDevice : Prop :=
  ∀ (s : State) (t : Nat), s.dev.boot.started = true →
    (s.dev.flt.stopped = false → s.dev.mode.power ≠ .rest →
      let stops := fun (cause arg : Nat) (s' : State) =>
        s'.dev.flt.stopped = true ∧ s'.dev.flt.cause = cause ∧ s'.dev.flt.arg = arg ∧ s'.dev.flt.silent = (cause == 1 || cause == 5)
          ∧ s'.dev.flt.castHead.isSome = true ∧ s'.dev.flt.cast0 = s.dev.flt.cast0 ∧ s'.dev.flt.cast1 = s.dev.flt.cast1
          ∧ Logged Ev.SYS_FATAL cause s s'
          ∧ (s.dev.twin.role = .solo → (∃ g, s'.dev.cyc.fallback = some g ∧ g.h = true) ∧ bitN s'.dev.mode.causes 8 = true)
          ∧ (s.dev.twin.role ≠ .solo → s'.dev.cyc = s.dev.cyc ∧ s'.dev.mode = s.dev.mode)
          ∧ s'.dev.twin = { s.dev.twin with hbTx := false } ∧ Only [.flt, .log, .out, .cyc, .mode, .twin] t s s'
      Runs (.refclkFault t) s (stops 1 0) ∧
      (∀ cause arg, 1 ≤ cause → cause ≤ 7 → Runs (.fatalFault t cause arg) s (stops cause arg)) ∧
      (∀ core, core < 4 → Runs (.coreWatchdogExpiry t core) s (stops 3 core))) ∧
    (∀ (b : BootInputs) (head : List Byte), b.straps.length = 8 → s.dev.flt.castHead = some head → s.dev.pv P.sys_fatal_restart = 0 →
      s.dev.flt.cause ≠ 5 → (s.dev.mode.doms.get {} 8).faulty = false →
      Runs (.castWriteDone t b) s fun s' =>
        s'.dev.boot = { s.dev.boot with halted := true } ∧ s'.dev.flt.castHead = none ∧ s'.dev.log.summary.take head.length = head
          ∧ (s.dev.flt.cast0 = none → (∃ c, s'.dev.flt.cast0 = some c ∧ c.head = head ∧ c.damaged = s.dev.flt.castHurt) ∧ s'.dev.flt.cast1 = s.dev.flt.cast1
            ∧ Logged Ev.SYS_CAST_WRITTEN 0 s s')
          ∧ (s.dev.flt.cast0 ≠ none → s'.dev.flt.cast0 = s.dev.flt.cast0 ∧ (∃ c, s'.dev.flt.cast1 = some c ∧ c.head = head ∧ c.damaged = s.dev.flt.castHurt)
            ∧ Logged Ev.SYS_CAST_WRITTEN 1 s s')
          ∧ Only [.boot, .flt, .log, .out] t s s')

/-- R460, R461, R471: PWRFAIL_L stops fetching, raises its event and starts the final commit of what is uncommitted then; the
final commit ends with the entries in the journal memory and the power-fail state beside them; the release of PWRFAIL_L
resumes fetching. A regular commit comes with 256 uncommitted entries, or with sys.journal_ms past since the last: it writes
the bytes of its entries on in the circular area, changes no byte outside what it writes, and empties that much of the
buffer. A write that fails raises EV_SYS_JOURNAL_FAIL and leaves the memory as it was. The model's choices in it: log entries
10, 40 and 63. -/
def Obligations.JournalCommitsAndPowerFail : Prop :=
  ∀ (s : State) (t : Nat),
    (s.dev.boot.pwrfail = false → s.dev.boot.vin = true → s.dev.boot.started = true → Runs (.pwrfailAssert t) s fun s' =>
      s'.dev.boot = { s.dev.boot with pwrfail := true, pwrfails := s.dev.boot.pwrfails + 1, finalDone := false }
        ∧ s'.dev.log.running = true ∧ s'.dev.log.finalN = s.dev.log.buffer.length + 1 ∧ Logged Ev.SYS_PWRFAIL 0 s s'
        ∧ Only [.boot, .log, .out] t s s') ∧
    (s.dev.log.running = true → s.dev.boot.resetWaits = false →
      Runs (.finalCommitDone t true) s (fun s' =>
        s'.dev.boot = { s.dev.boot with finalDone := true } ∧ s'.dev.log.running = false
          ∧ s'.dev.log.buffer = s.dev.log.buffer.drop s.dev.log.finalN
          ∧ s'.dev.log.commitSeq = s.dev.log.commitSeq + max 1 ((s.dev.log.finalN + 255) / 256)
          ∧ s'.dev.log.stateSeq = some s'.dev.log.commitSeq ∧ s'.dev.log.ring = s.dev.log.ring
          ∧ s'.dev.log.nextSeq = s.dev.log.nextSeq ∧ Only [.boot, .log] t s s') ∧
      Runs (.finalCommitDone t false) s fun s' =>
        s'.dev.boot = { s.dev.boot with finalDone := false } ∧ s'.dev.log.running = false ∧ s'.dev.log.works = false
          ∧ s'.dev.log.jmem = s.dev.log.jmem ∧ s'.dev.log.stateSeq = s.dev.log.stateSeq ∧ Logged Ev.SYS_JOURNAL_FAIL 0 s s'
          ∧ Only [.boot, .log, .out] t s s') ∧
    (s.dev.boot.pwrfail = true → Runs (.pwrfailRelease t) s fun s' =>
      s'.dev.boot = { s.dev.boot with pwrfail := false } ∧ Logged Ev.SYS_PWRFAIL_CLEARED 0 s s' ∧ Only [.boot, .log, .out] t s s') ∧
    (s.dev.boot.operational = true → s.dev.boot.pwrfail = false → s.dev.mode.power ≠ .rest →
      256 ≤ s.dev.log.buffer.length ∨ s.dev.log.lastCommit + ticksOfMs (s.dev.pn P.sys_journal_ms) ≤ s.now t →
      let es := s.dev.log.buffer.take 256
      Runs (.journalCommit t true) s (fun s' =>
        s'.dev.log.buffer = s.dev.log.buffer.drop 256 ∧ s'.dev.log.ring = s.dev.log.ring ∧ s'.dev.log.nextSeq = s.dev.log.nextSeq
          ∧ s'.dev.log.commitSeq = s.dev.log.commitSeq + 1 ∧ s'.dev.log.lastCommit = s.now t ∧ s'.dev.log.works = true
          ∧ (∃ c, s'.dev.log.commits = c :: s.dev.log.commits ∧ c.count = es.length ∧ c.addr = s.dev.log.jpos ∧ c.final = false)
          ∧ (memWf s.dev.log.jmem = true → s.dev.log.jpos < s.dev.log.area → 8272 ≤ s.dev.log.area →
              (∀ i, i < 32 * es.length →
                memRead s'.dev.log.jmem ((s.dev.log.jpos + i) % s.dev.log.area) = (es.flatMap Entry.bytes).getD i 0)
              ∧ ∀ a, (∀ i, i < 32 * es.length + 80 → a ≠ (s.dev.log.jpos + i) % s.dev.log.area) →
                  memRead s'.dev.log.jmem a = memRead s.dev.log.jmem a)
          ∧ Only [.log] t s s') ∧
      Runs (.journalCommit t false) s fun s' =>
        s'.dev.log.works = false ∧ s'.dev.log.jmem = s.dev.log.jmem ∧ s'.dev.log.buffer.take s.dev.log.buffer.length = s.dev.log.buffer
          ∧ Logged Ev.SYS_JOURNAL_FAIL 0 s s' ∧ Only [.log, .out] t s s')

/-! ## The safety unit (chapter 13) -/

/-- R419, R420, R423: a start-up test passed with a valid SAFECFG that the other channel read too seals it; a failed test, an
invalid code or two different readings enter SAFE_FAULT; the root PLL's lock starts the TBC at 0 and lets channel A release
its request. The model's choices in it: log entries 10, 24 and 27. -/
def Obligations.SafetyStartUpSealsOrFaults : Prop :=
  ∀ (s : State) (t cfg : Nat) (ch : Chan), s.safe.powered = true → cfg < 4096 →
    (s.safe.chan ch).tested = false → bitN s.safe.testRes (if ch = .a then 0 else 8) = false → ¬ s.safe.lasting →
    (cfgValid cfg = true → (s.safe.chan ch.other).tested = true → (s.safe.chan ch.other).cfg = cfg →
      Runs (.safetyStartupTestDone t ch cfg true) s fun s' =>
        s'.safe.cfgSealed = some cfg ∧ (s'.safe.chan ch).tested = true ∧ (s'.safe.chan ch).cfg = cfg
          ∧ (s'.safe.chan ch).st = (s.safe.chan ch).st ∧ s'.safe.Blocks ∧ Only [.safe, .down] t s s') ∧
    (cfgValid cfg = true → (s.safe.chan ch.other).tested = true → (s.safe.chan ch.other).cfg ≠ cfg →
      Runs (.safetyStartupTestDone t ch cfg true) s fun s' => s'.safe.Faulted 6 0 ∧ Only [.safe, .log, .out, .down, .mode] t s s') ∧
    (cfgValid cfg = false →
      Runs (.safetyStartupTestDone t ch cfg true) s fun s' => s'.safe.Faulted 6 0 ∧ Only [.safe, .log, .out, .down, .mode] t s s') ∧
    Runs (.safetyStartupTestDone t ch cfg false) s (fun s' =>
      s'.safe.Faulted (if ch = .a then 7 else 9) 0 ∧ Only [.safe, .log, .out, .down, .mode] t s s') ∧
    (s.dev.tim.running = false → Runs (.rootPllLock t) s fun s' =>
      s'.safe.pllLocked = true ∧ s'.safe.a.request = (s.safe.a.st != 0 || !s.safe.a.tested)
        ∧ s'.dev.tim = { s.dev.tim with running := true, tbc0 := s.now t } ∧ s'.dev.tbc = 0 ∧ Only [.safe, .tim, .down] t s s')

/-- R419, R425, R426, R428: a pin's change starts its filter and, on channel A, times the pair; a level that has held for the
filter time is accepted; a demand accepted in NORMAL puts the channel into SAFE with its block request set, raises
EV_SAFE_DEMAND, and a level that has held for less than the bound of Table 13-4 is not accepted. The model's choices in it:
log entries 10 and 29. -/
def Obligations.SafetyInputsAreFilteredAndBlock : Prop :=
  ∀ (s : State) (t : Nat) (ch : Chan) (pin : SafePin) (high : Bool), s.safe.powered = true → s.safe.Blocks → pin.ok = true →
    ((s.safe.chan ch).raw.get false pin.key ≠ high → Runs (.safetyInputChange t ch pin high) s fun s' =>
      (s'.safe.chan ch).raw = (s.safe.chan ch).raw.set pin.key high
        ∧ (s'.safe.chan ch).since = (s.safe.chan ch).since.set pin.key (s.now t)
        ∧ (s'.safe.chan ch).acc = (s.safe.chan ch).acc ∧ s'.safe.st = s.safe.st ∧ Only [.safe] t s s') ∧
    (∀ n b, pin = .sin n b → ch = .a → s.safe.a.raw.get false pin.key ≠ high → Runs (.safetyInputChange t ch pin high) s fun s' =>
      s'.safe.pairOpen.get false n = (s'.safe.a.raw.get false (2 * n) != s'.safe.a.raw.get false (2 * n + 1))
        ∧ ((s'.safe.pairOpen.get false n = true ∧ s.safe.pairOpen.get false n = false) → s'.safe.pairSince.get 0 n = s.now t)) ∧
    (s.now t < (s.safe.chan ch).since.get 0 pin.key + filterLow s.safe.cfg → Runs (.inputFilterAccept t ch pin) s fun s' =>
      (s'.safe.chan ch).acc = (s.safe.chan ch).acc ∧ s'.safe.st = s.safe.st) ∧
    (s.safe.cfgSealed ≠ none → (s.safe.chan ch).since.get 0 pin.key + filterLow s.safe.cfg ≤ s.now t →
      Runs (.inputFilterAccept t ch pin) s fun s' =>
        (s'.safe.chan ch).level pin.key = (s.safe.chan ch).raw.get false pin.key ∧ Only [.safe, .log, .out, .down, .mode] t s s') ∧
    (∀ n b, pin = .sin n b → (n < 7 ∨ s.safe.tripOn = false) → s.safe.cfgSealed ≠ none →
      (s.safe.chan ch).since.get 0 pin.key + filterLow s.safe.cfg ≤ s.now t → s.safe.a.st = 0 → s.safe.b.st = 0 →
      s.safe.recovery = none →
      (s.safe.chan ch).raw.get false pin.key = false → (s.safe.chan ch).level pin.key = true →
      Runs (.inputFilterAccept t ch pin) s fun s' =>
        (s'.safe.chan ch).st = 1 ∧ (s'.safe.chan ch).request = true ∧ s'.safe.st = 1 ∧ s'.safe.safeOk = false
          ∧ Raised Ev.SAFE_DEMAND s s')

/-- Table 13-6: every diagnostic enters SAFE_FAULT with its cause (R428, R434, R435, R437). R423, R435, R437: a reread that
equals the seal clears the count, the third in a row that differs is cause 0x05; a test pulse that the read-back follows is
counted; a passed march is counted; channels that hear each other and agree stay. R94, R437, R441: after a block request the
frame that a port sends next is a CTRL NOP with sb = 1; a port in RUN that does not report the block 10 µs later is held at
fill and the device enters SAFE_FAULT with cause 0x04; SAFE_STATUS returns the mirror. The model's choices in it: log entries
10, 24, 28, 29 and 32. -/
def Obligations.SafetyDiagnosticsFaultOrPass : Prop :=
  (∀ (s : State) (t : Nat), s.safe.powered = true → ¬ s.safe.lasting →
      let fault := fun (cause idx : Nat) (s' : State) =>
        s'.safe.Faulted cause idx ∧ (s.safe.st ≠ 2 → Raised Ev.SAFE_FAULT s s') ∧ Only [.safe, .log, .out, .down, .mode] t s s'
      Runs (.lockstepMismatch t) s (fault 0x08 0) ∧
      Runs (.backgroundMarch t false) s (fault 0x09 0) ∧
      (∀ per iso, Runs (.clockCrossCheckFail t per iso) s fun s' => fault 0x0B 0 s'
        ∧ s'.safe.perFreq = BitVec.ofNat 32 per ∧ s'.safe.isoFreq = BitVec.ofNat 32 iso) ∧
      (∀ output b, output < 4 → Runs (.readbackFault t output b) s fun s' =>
        fault 0x03 output s' ∧ Raised Ev.SAFE_READBACK s s' ∧ bitN s'.safe.rbErr output = true) ∧
      (∀ pair, pair < 8 → s.safe.cfgSealed ≠ none → s.safe.pairOpen.get false pair = true → s.safe.latchedA.get false pair = false →
        (s.safe.pairSince.get 0 pair + ticksOfMs (discMs s.safe.cfg) ≤ s.now t + ticksOfUs 100 →
          Runs (.discrepancyLatch t pair) s fun s' => fault 0x01 pair s' ∧ Raised Ev.SAFE_DISCREPANCY s s' ∧ s'.safe.recovery ≠ none) ∧
        (s.safe.pairSince.get 0 pair + ticksOfMs (discMs s.safe.cfg) * 106 / 100 + ticksOfUs 200 ≤ s.now t →
          Runs (.channelBDiscrepancy t pair) s (fault 0x0A pair))) ∧
      (∀ t0, s.safe.tripSince = some t0 → s.safe.tripOn = true → t0 + ticksOfMs (discMs s.safe.cfg) ≤ s.now t →
        s.safe.bothPins 7 true = false →
        Runs (.edmTimeout t) s fun s' => s'.safe.Faulted 0x02 7 ∧ Only [.safe, .log, .out, .down, .mode] t s s')) ∧
  (∀ (s : State) (t cfg : Nat) (ch : Chan), s.safe.powered = true → s.safe.Blocks → s.safe.cfgSealed = some cfg → cfg < 4096 →
      Runs (.safecfgReread t ch cfg) s (fun s' => (s'.safe.chan ch).badReads = 0 ∧ s'.safe.st = s.safe.st ∧ Only [.safe] t s s') ∧
      (∀ c, c < 4096 → c ≠ cfg → (s.safe.chan ch).badReads < 2 →
        Runs (.safecfgReread t ch c) s fun s' =>
        (s'.safe.chan ch).badReads = (s.safe.chan ch).badReads + 1 ∧ s'.safe.st = s.safe.st ∧ Only [.safe] t s s') ∧
      (∀ c, c < 4096 → c ≠ cfg → (s.safe.chan ch).badReads = 2 → ¬ s.safe.lasting →
        Runs (.safecfgReread t ch c) s fun s' =>
          s'.safe.Faulted 5 0 ∧ Raised Ev.SAFE_SEAL s s' ∧ Only [.safe, .log, .out, .down, .mode] t s s') ∧
      Runs (.backgroundMarch t true) s (fun s' => s'.safe.marches = s.safe.marches + 1 ∧ s'.safe.st = s.safe.st ∧ Only [.safe] t s s') ∧
      (∀ output b, output < 4 → s.safe.testedMode = true → bitN s.safe.out (output + 4 * bit01 b) = true →
        Runs (.soutTestPulse t output b true) s (fun s' => s'.safe.tests.get 0 output = s.safe.tests.get 0 output + 1
          ∧ s'.safe.st = s.safe.st ∧ s'.dev.out = (s.at t).dev.out ++ [.testPulse output b] ∧ Only [.safe, .out] t s s') ∧
        (¬ s.safe.lasting → Runs (.soutTestPulse t output b false) s fun s' => s'.safe.Faulted 3 output)) ∧
      (s.safe.a.st = s.safe.b.st → s.safe.a.edge = none → s.safe.b.edge = none → Runs (.crossMonitorExchange t true true) s fun s' =>
        s'.safe.silentA = none ∧ s'.safe.silentB = none ∧ s'.safe.differ = none ∧ s'.safe.st = s.safe.st ∧ Only [.safe] t s s') ∧
      (∀ t0, s.safe.silentA = some t0 → t0 + ticksOfUs 100 ≤ s.now t → ¬ s.safe.lasting →
        ∀ b, Runs (.crossMonitorExchange t false b) s fun s' => s'.safe.Faulted 0x0A 0)) ∧
  (∀ (s : State) (t : Nat),
       (∀ port, port < 48 → s.tx.sb = true → s.dev.sends s.tx port = true →
         Runs (.safetyBlockFrameStart t port) s fun s' =>
           (∃ (f : CtrlFrame) (r : List TxFrame), f.sb = true ∧ f.op = .nop
               ∧ (s'.dev.dl port).wait = ⟨.ctrl f, bitAfter (s.now t), none⟩ :: r
               ∧ ∀ w ∈ r, w ∈ ((s.at t).dev.dl port).wait)
             ∧ (s'.dev.dl port).hold = false ∧ (∀ p, p ≠ port → s'.dev.dl p = (s.at t).dev.dl p) ∧ Only [.down, .cp] t s s') ∧
       (∀ r, s.safe.powered = true → ¬ s.safe.lasting → s.safe.reqAt = some r → r + ticksOfUs 10 ≤ s.now t →
         s.dev.notBlocked ≠ [] →
         Runs (.blockReadbackCheck t) s fun s' => s'.safe.Faulted 4 (s.dev.notBlocked.headD 0)
           ∧ (∀ p ∈ s.dev.notBlocked, bitN s'.safe.forcedFill p = true ∧ Out.fill p ∈ s'.dev.out ∨ bitN s.safe.forcedFill p = true)
           ∧ Only [.safe, .log, .out, .down, .mode] t s s') ∧
       (∀ c, s.dev.accepts c 0x00F0 → Runs (.safeStatus t c) s fun s' =>
         Answered c 0x00F0 ⟨Sc.DONE, s.safe.statusBytes (s.now t), []⟩ s s' ∧ Only [.host] t s s'))


/-- R430 to R432, R436: the second channel's reset edge within 10 ms of the first's returns the device to NORMAL; a held
assertion beyond 5 s is ignored; MANUAL_WARM enters NORMAL after a quiet start; the maintenance hold raises SOUT2. The
model's choices in it: log entries 10, 26, 31 and 137. -/
def Obligations.SafetyRestartAndHold : Prop :=
  ∀ (s : State) (t : Nat), s.safe.powered = true → s.safe.Blocks →
    (∀ (ch : Chan) (b : Bool) (t0 e : Nat), let c := s.safe.chan ch; let k := 16 + bit01 b; let k' := 16 + bit01 (!b)
      s.safe.cfgSealed ≠ none → c.raw.get false k = false → c.level k = true → c.since.get 0 k + filterLow s.safe.cfg ≤ s.now t →
      c.st = 1 → c.srstOn.get none k = some t0 → c.level k' = false → c.srstLen.get none k' ≠ none →
      ({ c with acc := c.acc.set k false, srstLen := c.srstLen.set k (some (s.now t - t0)), srstRel := c.srstRel.set k (s.now t),
                srstOn := c.srstOn.set k none } : SafeChan).edgeOk s.safe.tripOn = true →
      (s.safe.chan ch.other).st = 1 → (s.safe.chan ch.other).edge = some e → s.now t ≤ e + ticksOfMs 10 →
      Runs (.inputFilterAccept t ch (.srst b)) s fun s' =>
        s'.safe.Normal ∧ s'.safe.resets = s.safe.resets + 1 ∧ Raised Ev.SAFE_RESTART s s' ∧ Only [.safe, .log, .out, .down, .mode] t s s') ∧
    (∀ (ch : Chan) (b : Bool) (t0 : Nat), (s.safe.chan ch).srstOn.get none (16 + bit01 b) = some t0 → t0 + ticksOfMs 5000 ≤ s.now t →
      Runs (.srstStuck t ch b) s fun s' => (s'.safe.chan ch).srstVoid.get false 16 = true ∧ (s'.safe.chan ch).srstVoid.get false 17 = true
        ∧ s'.safe.stuck = s.safe.stuck + 1 ∧ s'.safe.st = s.safe.st ∧ Logged Ev.SAFE_RESET_STUCK 0 s s' ∧ Only [.safe, .log, .out] t s s') ∧
    (s.safe.warm = true → s.safe.cfgSealed ≠ none → s.safe.everNormal = false →
      (∀ ch : Chan, let c := s.safe.chan ch
        c.tested = true ∧ c.st = 1 ∧ c.demand s.safe.tripOn = false ∧ (s.safe.tripOn = true → c.edmOpen = true)
          ∧ ∃ t0, c.warmSince = some t0 ∧ t0 + filterHigh s.safe.cfg ≤ s.now t) →
      Runs (.warmRestart t) s fun s' => s'.safe.Normal ∧ s'.safe.everNormal = true ∧ Raised Ev.SAFE_RESTART s s'
        ∧ Only [.safe, .log, .out, .down, .mode] t s s') ∧
    (s.safe.holdHolds = true → s.safe.hold = false → (∀ t0, s.safe.leftNormal = some t0 → t0 + ticksOfMs 10 ≤ s.now t) →
      (s.safe.leftNormal = none → s.safe.upAt + ticksOfMs 10 ≤ s.now t) →
      Runs (.holdEstablish t) s fun s' => s'.safe.hold = true ∧ bitN s'.safe.out 2 = true ∧ bitN s'.safe.out 6 = true
        ∧ s'.safe.st = s.safe.st ∧ Logged Ev.SAFE_HOLD 1 s s' ∧ Only [.safe, .log, .out] t s s')

/-! ## Memory errors, the alarm, firmware (chapter 14) -/

/-- R463 to R466: a corrected SRAM error counts per memory, a double-bit error retires the reed, loses the queue's oldest item,
or is fatal; a DRAM error fills the page's bucket by 64 and maps the page out at 512 or when it cannot be corrected; each
second every bucket loses 1. The model's choices in it: log entries 10, 65 and 96. -/
def Obligations.MemoryErrorsFillBucketsAndRetire : Prop :=
  ∀ (s : State) (t : Nat),
    (∀ mem, sramOk mem = true → (∀ n, mem ≠ .reedLocal n) → Runs (.sramCorrectedError t mem) s fun s' =>
      s'.dev.flt = { s.dev.flt with sramCe := s.dev.flt.sramCe.set (sramKey mem) (s.dev.flt.sramCe.get 0 (sramKey mem) + 1) }
        ∧ Only [.flt, .log, .out, .que] t s s') ∧
    (∀ n, n < 64 → Runs (.sramCorrectedError t (.reedLocal n)) s fun s' =>
      s'.dev.flt.sramCe.get 0 n = s.dev.flt.sramCe.get 0 n + 1 ∧ (s'.dev.reed n).ecc = (s.dev.reed n).ecc + 1
        ∧ s'.dev.que = s.dev.que ∧ s'.safe = s.safe) ∧
    (∀ n, n < 64 → s.dev.cyc.run = false → bitN s.dev.par.retReeds n = false → Runs (.sramDoubleError t (.reedLocal n)) s fun s' =>
      bitN s'.dev.par.retReeds n = true ∧ s'.dev.par.active = s.dev.par.active ∧ Raised Ev.CYCLE_REED_RETIRED s s' ∧ s'.safe = s.safe) ∧
    (∀ q i r, q < 1024 → (s.dev.queue q).items = i :: r → Runs (.sramDoubleError t (.granulePool q)) s fun s' =>
      (s'.dev.queue q).items = r ∧ s'.dev.que.eccUe = s.dev.que.eccUe + 1 ∧ Only [.que, .log, .out] t s s') ∧
    (∀ mem, mem = .l1 ∨ mem = .l2 ∨ mem = .retention → s.dev.flt.stopped = false → s.dev.mode.power ≠ .rest →
      Runs (.sramDoubleError t mem) s fun s' => s'.dev.flt.stopped = true ∧ s'.dev.flt.cause = 2 ∧ s'.dev.flt.arg = sramKey mem
        ∧ Logged Ev.SYS_FATAL 2 s s') ∧
    (∀ page user, page < s.dev.flt.dramPages → s.dev.flt.mapped.any (fun m => m.1 == page) = false →
      (s.dev.flt.pages.get 0 page + 64 < 512 → Runs (.dramError t page true user) s fun s' =>
        s'.dev.flt = { s.dev.flt with pages := s.dev.flt.pages.set page (s.dev.flt.pages.get 0 page + 64) } ∧ Only [.flt] t s s') ∧
      (448 ≤ s.dev.flt.pages.get 0 page → s.dev.flt.mapped.length < 1024 → Runs (.dramError t page true user) s fun s' =>
        s'.dev.flt.mapped.any (fun m => m.1 == page) = true ∧ page ∈ s'.dev.flt.leaving ∧ Raised Ev.SYS_DRAM_PAGE s s'
          ∧ Only [.flt, .log, .out] t s s') ∧
      (s.dev.flt.mapped.length < 1024 → Runs (.dramError t page false user) s fun s' =>
        s'.dev.flt.mapped.any (fun m => m.1 == page) = true ∧ page ∈ s'.dev.flt.leaving ∧ Raised Ev.SYS_DRAM_PAGE s s'
          ∧ s'.flash.staged = (if user = .staging then [] else s.flash.staged) ∧ s'.flash.slots = s.flash.slots
          ∧ Only [.flt, .log, .out, .flash] t s s')) ∧
    Runs (.dramPageDecay t) s (fun s' =>
      ((s.dev.flt.pages.map (·.1)).Nodup → ∀ page, s'.dev.flt.pages.get 0 page = s.dev.flt.pages.get 0 page - 1)
        ∧ s'.dev.flt.mapped = s.dev.flt.mapped ∧ Only [.flt] t s s') ∧
    Runs (.dramScrub t) s fun s' => s'.dev.flt = { s.dev.flt with scrubs := s.dev.flt.scrubs + 1 } ∧ Only [.flt] t s s'

/-- R454 to R457: a tamper source raises the alarm to its level and closes the debug window from level 2 on; level 3 takes the
fatal path with cause 0x06 and erases the keys; SEC_ALARM_CLEAR lowers the level where no source of a higher one is present;
none of it acts on the safety unit. The model's choices in it: log entries 10 and 101. -/
def Obligations.AlarmRisesErasesAndClears : Prop :=
  ∀ (s : State) (t row : Nat), row < 9 → s.safe.powered = true →
    (row ≠ 0 → s.dev.alarmLevel ([1, 2, 2, 2, 3, 3, 1, 1, 1].getD row 0) < 3 → Runs (.tamperSource t row true) s fun s' =>
      s'.dev.sec.alarm = max s.dev.sec.alarm (s.dev.alarmLevel ([1, 2, 2, 2, 3, 3, 1, 1, 1].getD row 0))
        ∧ bitN s'.dev.sec.present row = true ∧ Raised Ev.SEC_ALARM s s'
        ∧ (2 ≤ s.dev.alarmLevel ([1, 2, 2, 2, 3, 3, 1, 1, 1].getD row 0) → s'.dev.sec.window = false ∧ s'.dev.sec.jtag = false)
        ∧ s'.otp = s.otp ∧ Only [.sec, .boot, .log, .out, .mode] t s s') ∧
    (row = 4 ∨ row = 5 → s.dev.sec.tamperErase = true → s.dev.flt.stopped = false → s.dev.mode.power ≠ .rest →
      Runs (.tamperSource t row true) s fun s' =>
        s'.dev.sec.alarm = max s.dev.sec.alarm 3 ∧ s'.dev.flt.stopped = true ∧ s'.dev.flt.cause = 6 ∧ s'.otp.KeysGone
          ∧ s'.otp.erased = true ∧ Raised Ev.SYS_FATAL s s' ∧ s'.safe = s.safe ∧ s'.flash = s.flash) ∧
    Runs (.tamperSource t row false) s (fun s' =>
      (∀ i, i < 9 → bitN s'.dev.sec.present i = (i != row && bitN s.dev.sec.present i)) ∧ s'.dev.sec.alarm = s.dev.sec.alarm
        ∧ Only [.sec] t s s') ∧
    (∀ (c : CmdRef) (level : Nat), s.dev.accepts c 0x0105 → level < 3 → s.dev.sec.present = 0 → level < s.dev.sec.alarm →
      Runs (.secAlarmClear t c level) s fun s' =>
        s'.dev.sec = { s.dev.sec with alarm := level, raised := 0 } ∧ Logged Ev.SEC_ALARM_CLEARED level s s'
          ∧ Answered c 0x0105 (stRes Sc.DONE) s s' ∧ Only [.sec, .log, .out, .host] t s s') ∧
    (∀ (c : CmdRef) (level : Nat), s.dev.accepts c 0x0105 → 3 ≤ level → Runs (.secAlarmClear t c level) s fun s' =>
      Answered c 0x0105 (stRes Sc.STATE) s s' ∧ Only [.host] t s s')

/-- R454: DBG_UNLOCK issues a fresh challenge, valid for 60 s and for one answer; a right DEBUG answer opens the window and JTAG,
a LOCK_CLEAR answer sets sys.lock_at_boot to OFF and commits it, a wrong one completes with STATE and is counted. The model's
choices in it: log entries 2, 10 and 97. -/
def Obligations.DebugUnlockTakesOneAnswer : Prop :=
  ∀ (s : State) (t : Nat),
    (∀ c, s.dev.accepts c 0x0108 → Runs (.dbgUnlock t c none) s fun s' =>
      s'.dev.sec = { s.dev.sec with challenge := some (Config.challenge s.dev.sec.challenges), challengeAt := s.now t,
                                    challenges := s.dev.sec.challenges + 1 }
        ∧ Answered c 0x0108 ⟨Sc.DONE, [], bytesBE 48 (Config.challenge s.dev.sec.challenges).toNat⟩ s s' ∧ Only [.sec, .host] t s s') ∧
    (∀ (c : CmdRef) (a : UnlockAnswer) (ch : BitVec 384), s.dev.accepts c 0x0108 → s.dev.sec.challenge = some ch →
      s.now t < s.dev.sec.challengeAt + ticksOfS 60 → s.otp.unlockOk ch a = true → Runs (.dbgUnlock t c (some a)) s fun s' =>
        s'.dev.sec.challenge = none ∧ (a.scope = 1 → s'.dev.sec.window = true ∧ s'.dev.sec.jtag = true ∧ s'.dev.par = s.dev.par)
          ∧ (a.scope = 2 → s'.dev.sec = { s.dev.sec with challenge := none } ∧ s'.dev.pv P.sys_lock_at_boot = 0
            ∧ s'.dev.par.committed.vals.get 1 (pkey P.sys_lock_at_boot 0) = 0)
          ∧ Logged Ev.SEC_UNLOCK a.scope s s' ∧ Answered c 0x0108 (stRes Sc.DONE) s s' ∧ Only [.sec, .par, .log, .out, .host] t s s') ∧
    (∀ (c : CmdRef) (a : UnlockAnswer), s.dev.accepts c 0x0108 → (∀ ch, s.dev.sec.challenge = some ch →
        s.dev.sec.challengeAt + ticksOfS 60 ≤ s.now t ∨ s.otp.unlockOk ch a = false) → s.dev.sec.unlockFails = [] →
      Runs (.dbgUnlock t c (some a)) s fun s' =>
        s'.dev.sec.challenge = none ∧ s'.dev.sec.unlockFails = [s.now t] ∧ s'.dev.sec.window = s.dev.sec.window
          ∧ Logged Ev.SEC_UNLOCK_FAIL 0 s s' ∧ Answered c 0x0108 (stRes Sc.STATE) s s' ∧ Only [.sec, .log, .out, .host] t s s') ∧
    (s.dev.sec.challengeAt + ticksOfS 60 ≤ s.now t → Runs (.challengeExpiry t) s fun s' =>
      s'.dev.sec = { s.dev.sec with challenge := none } ∧ Only [.sec] t s s')

/-- R446, R447, R450, R451: FW_STAGE writes its bytes at its offset of the staging area and no other byte; FW_VERIFY writes a
staged image that passes every check into the slot that is not active, and answers SIG_INVALID or ROLLBACK with its event
otherwise; FW_ACTIVATE names the verified slot and restarts, or programs the owner key of an OWNER image. The model's choices
in it: log entries 2, 10, 16, 66, 97 and 138. -/
def Obligations.FirmwareIsStagedVerifiedActivated : Prop :=
  ∀ (s : State) (t : Nat),
    (∀ (c : CmdRef) (offset : Nat) (data : List Byte), s.dev.accepts c 0x0100 → memWf s.flash.staged = true →
      (offset + data.length ≤ 2 ^ 24 → Runs (.fwStage t c offset data) s fun s' =>
        memWf s'.flash.staged = true
          ∧ (∀ a, memRead s'.flash.staged a =
              if offset ≤ a ∧ a < offset + data.length then data.getD (a - offset) 0 else memRead s.flash.staged a)
          ∧ s'.flash = { s.flash with staged := s'.flash.staged, verified := none } ∧ Answered c 0x0100 (stRes Sc.DONE) s s' ∧ Only [.flash, .host] t s s') ∧
      (2 ^ 24 < offset + data.length → Runs (.fwStage t c offset data) s fun s' =>
        Answered c 0x0100 (stRes Sc.RANGE) s s' ∧ Only [.host] t s s')) ∧
    (∀ c, s.dev.accepts c 0x0101 →
      (imageCheck s.otp s.flash.stagedImage = none → Runs (.fwVerify t c) s fun s' =>
        s'.flash = { s.flash with slots := s.flash.slots.set (1 - s.flash.active) s.flash.stagedImage, verified := some (1 - s.flash.active),
                                  ownerImage := s.flash.stagedImage.isOwner }
          ∧ Answered c 0x0101 (stRes Sc.DONE) s s' ∧ Only [.flash, .host] t s s') ∧
      (∀ st, imageCheck s.otp s.flash.stagedImage = some st → s.dev.sec.sigFails = [] → Runs (.fwVerify t c) s fun s' =>
        Logged (if st = Sc.ROLLBACK then Ev.SEC_ROLLBACK else Ev.SEC_SIG_FAIL) 0 s s' ∧ s'.dev.sec.sigFails = [s.now t]
          ∧ s'.flash = { s.flash with verified := none } ∧ Answered c 0x0101 (stRes st) s s' ∧ Only [.sec, .flash, .log, .out, .host] t s s')) ∧
    (∀ (c : CmdRef) (b : BootInputs), b.straps.length = 8 → s.dev.accepts c 0x0102 →
      (s.flash.verified = none ∨ s.dev.activateBlocked = true → Runs (.fwActivate t c b) s fun s' =>
        Answered c 0x0102 (stRes Sc.STATE) s s' ∧ Only [.host] t s s') ∧
      (∀ slot, s.flash.verified = some slot → s.dev.activateBlocked = false → s.flash.ownerImage = false →
        Runs (.fwActivate t c b) s fun s' => s'.flash.active = slot ∧ s'.flash.byActivate = true ∧ s'.flash.slots = s.flash.slots
          ∧ s'.flash.verified = none ∧ s'.dev.boot.operational = false ∧ s'.safe = s.safe
          ∧ s'.pending = s.pending) ∧
      (∀ slot i k, s.flash.verified = some slot → s.dev.activateBlocked = false → s.flash.ownerImage = true →
        (List.range 4).find? (fun i => (s.otp.owner.find i).isNone) = some i → Image.ownerKey (s.flash.slots.get [] slot) = some k →
        Runs (.fwActivate t c b) s fun s' =>
          s'.otp.owner = s.otp.owner.set i (Config.sha384 k) ∧ s'.otp.lifecycle = max s.otp.lifecycle 2 ∧ s'.otp.rollback = s.otp.rollback
            ∧ (∀ j, s.otp.ownerSlot = some j → bitN s'.otp.ownerRevoked j = true) ∧ Logged Ev.SEC_OWNER_SET i s s'
            ∧ Answered c 0x0102 (stRes Sc.DONE) s s' ∧ s'.dev.boot = s.dev.boot ∧ Only [.otp, .flash, .log, .out, .host] t s s'))

/-- R452, R453, R460, R462, R470: the commands that return stored data answer with exactly that data and change nothing else:
certificates, the signed attestation report, entries of the event log, bytes of the journal memory, bytes of a cast; an empty
cast slot and a span beyond the memory complete with RANGE; CAST_CLEAR empties both slots. The model's choices in it: log
entries 2, 58 and 63. -/
def Obligations.StoredDataIsReturnedAsItIs : Prop :=
  ∀ (s : State) (t : Nat) (c : CmdRef),
    (s.dev.accepts c 0x0104 → Runs (.secIdentity t c) s fun s' =>
      Answered c 0x0104 ⟨Sc.DONE, [], Config.identityCerts⟩ s s' ∧ Only [.host] t s s') ∧
    (∀ nonce, s.dev.accepts c 0x0103 → Runs (.secAttest t c nonce) s fun s' =>
      (∃ b, b = (s.at t).attest nonce
        ∧ Answered c 0x0103 ⟨Sc.DONE, [], b ++ bytesBE 96 (Config.ecdsaSign s.otp.identityKey (Config.sha384 b)).toNat⟩ s s') ∧ Only [.host] t s s') ∧
    (∀ first count, s.dev.accepts c 0x0003 → 0 < count → count ≤ 1024 → (∃ e ∈ s.dev.log.ring, e.seq.toNat = first) →
      Runs (.eventRead t c first count) s fun s' =>
        Answered c 0x0003 ⟨Sc.DONE, [], ((s.dev.log.ring.dropWhile fun e => e.seq.toNat != first).take count).flatMap Entry.bytes⟩ s s'
          ∧ Only [.host] t s s') ∧
    (∀ offset length, s.dev.accepts c 0x0004 →
      (offset + length ≤ s.dev.log.jsize → Runs (.journalRead t c offset length) s fun s' =>
        (∃ bs : List Byte, bs.length = length ∧ (∀ i, i < length → bs.getD i 0 = s.dev.log.byte (offset + i))
          ∧ Answered c 0x0004 ⟨Sc.DONE, [], bs⟩ s s') ∧ Only [.host] t s s') ∧
      (s.dev.log.jsize < offset + length → Runs (.journalRead t c offset length) s fun s' =>
        Answered c 0x0004 (stRes Sc.RANGE) s s' ∧ Only [.host] t s s')) ∧
    (∀ slot offset length, s.dev.accepts c 0x0106 →
      (∀ x, (slot = 0 ∧ s.dev.flt.cast0 = some x) ∨ (slot = 1 ∧ s.dev.flt.cast1 = some x) → offset + length ≤ castLen x.no →
        Runs (.castRead t c slot offset length) s fun s' => Answered c 0x0106 ⟨Sc.DONE, [], x.bytesAt offset length⟩ s s' ∧ Only [.host] t s s') ∧
      (s.dev.flt.cast0 = none → s.dev.flt.cast1 = none → Runs (.castRead t c slot offset length) s fun s' =>
        Answered c 0x0106 (stRes Sc.RANGE) s s' ∧ Only [.host] t s s')) ∧
    (s.dev.accepts c 0x0107 → Runs (.castClear t c) s fun s' =>
      s'.dev.flt = { s.dev.flt with cast0 := none, cast1 := none } ∧ Answered c 0x0107 (stRes Sc.DONE) s s' ∧ Only [.flt, .host] t s s')

/-! ## The decision path of a cycle (chapters 2 and 7) -/

/-- R23, R233, R241, R485: cycle k starts at its instant with the sequencer in RUN; in IDLE, in REST and after a fatal fault only
the cycle number and its instant move on. R42, R43, R45: PK4 predicts every cell of its group: from an ok sample and the arm
current by the charge of its insertion, in the order in which its reed may run it; the voltages stand in its output slot, and
no other cell changes. The model's choices in it: log entries 35, 46, 47, 120, 122, 127 and 130. -/
def Obligations.CycleStartsAndCellsArePredicted : Prop :=
  (∀ (s : State) (t k : Nat), k < 2 ^ 48 → s.dev.boot.operational = true →
      (s.dev.flt.stopped = true → Runs (.modulationCycleStart t k) s fun s' =>
        s'.dev.cyc = { s.dev.cyc with k := k, tk := s.now t } ∧ Only [.cyc] t s s') ∧
      (s.dev.flt.stopped = false → s.dev.mode.power ≠ .run → s.dev.mode.entry = none → Runs (.modulationCycleStart t k) s fun s' =>
        s'.dev.cyc = { s.dev.cyc with k := k, tk := s.now t } ∧ Only [.cyc] t s s') ∧
      (s.dev.flt.stopped = false → s.dev.mode.power = .run → s.dev.mode.entry = none → Runs (.modulationCycleStart t k) s fun s' =>
        s'.dev.cyc.k = k ∧ s'.dev.cyc.tk = s.now t ∧ s'.dev.cyc.run = true ∧ s'.dev.mode.power = .run
          ∧ s'.safe = s.safe ∧ s'.otp = s.otp ∧ s'.flash = s.flash ∧ s'.pending = s.pending)) ∧
  (∀ (s : State) (t g : Nat), g < 12 → (s.dev.at t).critRuns (s.dev.groupArm g) (.pk4 g) = true →
      let tk := s.dev.tOf s.dev.cyc.k
      Runs (.pk4Task t g) s fun s' =>
        Task.pk4 g ∈ s'.dev.cyc.done ∧ s'.dev.cyc.k = s.dev.cyc.k
        ∧ s'.dev.slot (.pk4 g) = (s.dev.groupCells g).map (fun p => wrapN 32 (milli (s'.dev.cell p).vPred))
        ∧ (∀ p, p ∉ s.dev.groupCells g → s'.dev.cell p = s.dev.cell p)
        ∧ (∀ p ∈ s.dev.groupCells g, ∀ (x : Sample) (is ik : F32), s.dev.cyc.snapMeas.find p = some x → x.ok = true →
            (s.dev.port p).stage = .run → s.dev.armCurrent (s.dev.portArm p) x.t = some is → s.dev.armCurrent (s.dev.portArm p) tk = some ik →
            let c := s.dev.cell p
            let q := f32mul (f32mul (f32mul (insertedFraction c.sched x.t tk) fHalf) (f32add is ik)) (secs (tk - x.t))
            (s'.dev.cell p).vPred = f32add x.v (f32div q (s.dev.capOf c)) ∧ (s'.dev.cell p).hold = 0 ∧ (s'.dev.cell p).seen = true
              ∧ (s'.dev.cell p).degraded = false)
        ∧ (∀ p ∈ s.dev.groupCells g, s.dev.cyc.snapMeas.find p = none → (s.dev.cell p).seen = false →
            (s'.dev.cell p).vPred = f0 ∧ (s'.dev.cell p).seen = false)
        ∧ (∀ p ∈ s.dev.groupCells g, s.dev.cyc.snapMeas.find p = none → (s.dev.cell p).seen = true →
            (s'.dev.cell p).hold = (s.dev.cell p).hold + (tk - s.dev.tOf (s.dev.cyc.k - 1)).toNat ∧ (s'.dev.cell p).degraded = true)
        ∧ Only [.cyc, .log, .out, .openIx] t s s')

/-- R68, R235, R246 to R249: no arm is judged before its t_cmd; once that of every arm has passed, a cycle with every task
complete and its references present clears the cell counter; a first overrun counts, is raised with its cause, and repeats
every cell's states for the new target; a second one in a row is a segment fault, or EV_CYCLE_REF_LOST with block cause 5
where the missing reference was the only cause of both. The model's choices in it: log entries 10, 47, 49, 57 and 121. -/
def Obligations.CommandDeadlineJudgesTheCycle : Prop :=
  ∀ (s : State) (t : Nat), s.dev.cyc.run = true → s.dev.cyc.judged = false → s.dev.cyc.segFault = false → s.dev.flt.stopped = false →
    let past := fun (a : Nat) => (s.dev.at t).sinceCycle (900000 + 68000 * s.dev.nSeg a)
    ((∀ a ∈ s.dev.arms, past a = false) → s.dev.arms ≠ [] → s.dev.cyc.cause = {} → Runs (.commandDeadline t) s (Only [] t s)) ∧
    ((∀ a ∈ s.dev.arms, past a = true) →
    let noRef := s.dev.arms.any s.dev.refMissing
    let c : OverrunCause := { s.dev.cyc.cause with crit := s.dev.cyc.cause.crit || s.dev.arms.any (fun a => !s.dev.critDone a), ref := noRef }
    let target := s.dev.cyc.k + s.dev.depth
    (c.any = false → Runs (.commandDeadline t) s fun s' =>
      s'.dev.cyc = { s.dev.cyc with judged := true, cellOvr := 0, cause := {}, lastCause := {}, rep := false, deque := s'.dev.cyc.deque }
        ∧ bitN s'.dev.mode.causes 5 = false ∧ Only [.cyc, .mode] t s s') ∧
    (c.any = true → s.dev.cyc.cellOvr = 0 → Runs (.commandDeadline t) s fun s' =>
      s'.dev.cyc.judged = true ∧ s'.dev.cyc.cellOvr = 1 ∧ s'.dev.cyc.ovrCell = s.dev.cyc.ovrCell + 1 ∧ s'.dev.cyc.rep = true
        ∧ s'.dev.cyc.segFault = false ∧ s'.dev.cyc.lastCause = c ∧ Raised Ev.CYCLE_OVERRUN s s'
        ∧ (∀ p n f, p < 48 → s.dev.cellAt p = true →
            ((s.dev.cell p).lastFrame = some (n, f) ∧ n ≠ target)
              ∨ (∃ b f0, (s.dev.cell p).lastFrame = some (target, f0) ∧ (s.dev.cell p).prev = some b ∧ b.frame = some (n, f)) →
            ∃ f', (s'.dev.cell p).lastFrame = some (target, f') ∧ f'.s1 = f.s1
              ∧ f'.second.map (·.1) = f.second.map (·.1) ∧ f'.seq = target % 256 ∧ f'.sb = s.tx.sb)
        ∧ Only [.cyc, .log, .out, .cp, .down] t s s') ∧
    (c.any = true → s.dev.cyc.cellOvr = 1 →
      (noRef = true → s.dev.cyc.lastCause.ref = true → (c.crit || c.carry || c.lag) = false →
        (s.dev.cyc.lastCause.crit || s.dev.cyc.lastCause.carry || s.dev.cyc.lastCause.lag) = false → bitN s.dev.mode.causes 5 = false →
        Runs (.commandDeadline t) s fun s' => Logged Ev.CYCLE_REF_LOST 0 s s' ∧ bitN s'.dev.mode.causes 5 = true
          ∧ s'.dev.cyc.segFault = false ∧ Only [.cyc, .log, .out, .cp, .down, .mode] t s s') ∧
      (c.crit = true → Runs (.commandDeadline t) s fun s' =>
        s'.dev.cyc.segFault = true ∧ Raised Ev.CYCLE_SEGMENT_FAULT s s'
          ∧ (noRef = true → s.dev.cyc.lastCause.ref = true → ∀ a ∈ s.dev.arms, (s'.dev.armSt a).blockAll = true)
          ∧ (s.dev.twin.role = .solo → (∃ g, s'.dev.cyc.fallback = some g ∧ g.h = true ∧ g.first = target)
              ∧ bitN s'.dev.mode.causes 6 = true)
          ∧ (s.dev.twin.role ≠ .solo → s.dev.duplex = true → s'.dev.cyc.fallback = s.dev.cyc.fallback)
          ∧ Only [.cyc, .log, .out, .mode] t s s')))

/-- R48, R51, R52, R279, R285: KB builds the own key block of an arm after every PK4 of it: its cycle and segment, and for each
own cell its key from PK4's slot, 0xFFFF where the cell may not be selected; the block counts as received and waits for the
lanes of the ports that its reach takes. The model's choices in it: log entries 42, 44, 103, 108 and 132. -/
def Obligations.KeyBlockIsBuiltAndSent : Prop :=
  ∀ (s : State) (t arm : Nat), arm < 6 → arm ∈ s.dev.arms → (s.dev.at t).critRuns arm (.kb arm) = true →
    Runs (.kbTask t arm) s fun s' => ∃ b : KeyBlock,
      (s'.dev.armSt arm).own = some b ∧ (s'.dev.armSt arm).blocks.find (s.dev.segIn arm) = some b
      ∧ (s.dev.segIn arm < 16 → bitN (s'.dev.armSt arm).fresh (s.dev.segIn arm) = true)
      ∧ b.cycLo = s.dev.cyc.k % 65536 ∧ b.seg = s.dev.segIn arm ∧ b.arm = arm ∧ b.rep = s.dev.cyc.rep ∧ b.uEcho = (s.dev.armSt arm).uPrev
      ∧ b.holder = s.dev.holds ∧ b.twinB = s.dev.letterB ∧ b.presence = (s.dev.armSt arm).presence ∧ b.isolated = (s.dev.armSt arm).isolated
      ∧ b.nUse = ((List.range 48).filter fun p => s.dev.portArm p == arm && s.dev.usableCell p).length
      ∧ (∀ p, p < 48 → b.keys.getD p 0 =
          if s.dev.portArm p = arm ∧ s.dev.usableCell p = true ∧ s.dev.noInsert p = false then
            keyOf (s.dev.predMv p
              - (if (s.dev.armSt arm).dir then 1 else -1) * polarity (s.dev.cell p).last * ((s.dev.armSt arm).bandNext : Nat))
          else 0xFFFF)
      ∧ (∀ p, p < 48 → (b.states.getD p {}).present = (s.dev.portArm p == arm && s.dev.cellAt p))
      ∧ Task.kb arm ∈ s'.dev.cyc.done
      ∧ (∀ p, p < 2 → s.dev.fullTraffic = true → s.dev.linkUp p = true →
          0 < (if p = 0 then (s.dev.reachOf (s.dev.nSeg arm) (s.dev.segIn arm)).1 else (s.dev.reachOf (s.dev.nSeg arm) (s.dev.segIn arm)).2) →
          ∃ x ∈ (s'.dev.link p).tx, x.blk = .key b false ∧ x.given = 160 * s.now t)
      ∧ (s.dev.fullTraffic = false → s'.dev.fab = (s.at t).dev.fab)
      ∧ Only [.cyc, .fab, .log, .out, .openIx] t s s'

/-- R23, R53 to R56, R237, R279, R285: a KEY unit of this cycle that arrives in time counts for its segment and passes on within
its reach; a late or wrong one only counts as late; at t_kx the twin's copies take the place of missing blocks; with every
block there, or 0.15 µs later, the blocks count as gathered, a missing segment with its last block while that is fresh
enough, and the selection takes the reference held then; a WANT block is served at once from the blocks held. The model's
choices in it: log entries 42, 74 and 116. -/
def Obligations.KeyBlocksAreGathered : Prop :=
  ∀ (s : State) (t : Nat),
    (∀ (lane : Nat) (b : KeyBlock), lane < 4 → b.arm ∈ s.dev.arms → b.seg < 16 →
      let n := s.dev.nSeg b.arm
      let me := s.dev.segIn b.arm
      let east := lane / 2 = 1
      let dist := if east then (me + n - b.seg) % n else (b.seg + n - me) % n
      let far := if east then (s.dev.reachOf n b.seg).1 else (s.dev.reachOf n b.seg).2
      (b.cycLo = s.dev.cyc.k % 65536 → (s.dev.armSt b.arm).gathered = false → (s.now t - s.dev.cyc.tk) * 1600 ≤ tKxPs n →
        Runs (.keyBlockReceive t lane b true) s fun s' =>
          (s'.dev.armSt b.arm).blocks.find b.seg = some b ∧ bitN (s'.dev.armSt b.arm).fresh b.seg = true
            ∧ (s'.dev.armSt b.arm).late = (s.dev.armSt b.arm).late
            ∧ (∀ j, j ≠ b.seg → (s'.dev.armSt b.arm).blocks.find j = (s.dev.armSt b.arm).blocks.find j)
            ∧ (s.dev.linkUp (1 - lane / 2) = true →
                (s'.dev.link (1 - lane / 2)).tx.map (·.blk) = ((s.at t).dev.link (1 - lane / 2)).tx.map (·.blk)
                  ++ (if b.seg ≠ me ∧ 0 < dist ∧ dist < far then [.key b false] else []))
            ∧ (s.dev.linkUp 2 = true → (s'.dev.link 2).tx.map (·.blk) = ((s.at t).dev.link 2).tx.map (·.blk)
                  ++ (if bitN (s.dev.armSt b.arm).twinWants b.seg = true then [.key b false] else []))
            ∧ Only [.cyc, .fab, .log, .out] t s s') ∧
      (b.cycLo ≠ s.dev.cyc.k % 65536 → Runs (.keyBlockReceive t lane b true) s fun s' =>
        s'.dev.armSt b.arm = { s.dev.armSt b.arm with late := (s.dev.armSt b.arm).late + 1 } ∧ Only [.cyc, .fab] t s s')) ∧
    (∀ arm, arm < 6 → arm ∈ s.dev.arms → (s.dev.armSt arm).gathered = false →
      (∀ x ∈ (s.dev.armSt arm).twinBlocks, x.2.seg = x.1) → (∀ x ∈ (s.dev.armSt arm).lastFresh, x.2.2.seg = x.1) →
      let here := fun (j : Nat) => ((s.dev.armSt arm).blocks.find j).orElse fun _ => (s.dev.armSt arm).twinBlocks.find j
      let starts := fun (s' : State) => (s'.dev.armSt arm).gathered = true ∧ (s'.dev.armSt arm).presence = (s'.dev.armSt arm).fresh
        ∧ ((s'.dev.armSt arm).echoBad < 2 → (s'.dev.armSt arm).record = s.dev.recordNow arm)
        ∧ (s'.dev.armSt arm).uRef = (s'.dev.armSt arm).record.map (fun r => refValue r s.dev.cyc.k)
        ∧ (∀ b, (s'.dev.armSt arm).blocks.find (s.dev.pni P.mode_arm_lead_seg arm) = some b →
            (s'.dev.armSt arm).dirNext = b.dir ∧ (s'.dev.armSt arm).bandNext = b.band)
      ((s.dev.at t).sinceCycle (tKxPs (s.dev.nSeg arm)) = true → Runs (.keyExchangeDeadline t arm) s (fun s' =>
        (∀ j, (s'.dev.armSt arm).blocks.find j = here j)
          ∧ ((∀ j, j < s.dev.nSeg arm → (here j).isSome = true) → starts s')
          ∧ ((∃ j, j < s.dev.nSeg arm ∧ here j = none) → (s'.dev.armSt arm).gathered = false)
          ∧ Only [.cyc, .log, .out] t s s')) ∧
      ((s.dev.at t).sinceCycle (tKxPs (s.dev.nSeg arm) + 150000) = true → Runs (.twinFillDeadline t arm) s fun s' =>
        starts s'
        ∧ (∀ j b, here j = some b → (s'.dev.armSt arm).blocks.find j = some b)
        ∧ (∀ j c b, j < s.dev.nSeg arm → here j = none → (s.dev.armSt arm).lastFresh.find j = some (c, b) →
            (s.dev.cyc.k ≤ c + s.dev.pn P.mod_blk_hold → (s'.dev.armSt arm).blocks.find j = some b ∧ Raised Ev.MOD_BLOCK_SUBST s s') ∧
            (c + s.dev.pn P.mod_blk_hold < s.dev.cyc.k → (s'.dev.armSt arm).blocks.find j = none ∧ Raised Ev.MOD_SEG_UNSEEN s s'))
        ∧ Only [.cyc, .log, .out] t s s')) ∧
    (∀ lane masks, lane = 4 ∨ lane = 5 → masks.length ≤ 3 → Runs (.wantReceive t lane masks) s fun s' =>
      (∀ g j, g < 3 → j < 16 → s.dev.pni P.mod_pg_arm g < 6 → bitN (masks.getD g 0) j = true →
        bitN (s'.dev.armSt (s.dev.pni P.mod_pg_arm g)).twinWants j = true
          ∧ (∀ b, (s.dev.armSt (s.dev.pni P.mod_pg_arm g)).blocks.find j = some b → bitN (s.dev.armSt (s.dev.pni P.mod_pg_arm g)).fresh j = true →
              s.dev.linkUp 2 = true → Waits 2 (.key b false) s'))
      ∧ (∀ a j, (s'.dev.armSt a).blocks.find j = (s.dev.armSt a).blocks.find j) ∧ Only [.cyc, .fab] t s s')

/-- R23, R40, R58, R80: COUNT takes the totals of the gathered blocks and the reference, and N and f from m; N never exceeds what
is usable, f is 0 in the nearest-level mode, and too few cells are block cause 1; without a reference the insertion count
stands. R59, R236: a ranked cell's rank is the number of candidates that precede it in the total order, by key, then segment,
then port, and stands in its group's output slot. The model's choices in it: log entries 45 and 47. -/
def Obligations.CellsAreCountedAndRanked : Prop :=
  (∀ (s : State) (t arm : Nat), arm < 6 → arm ∈ s.dev.arms → (s.dev.armSt arm).gathered = true →
      (s.dev.at t).critRuns arm (.count arm) = true →
      let total := fun (f : KeyBlock → Nat) => (s.dev.armSt arm).blocks.foldl (fun n b => n + f b.2) 0
      Runs (.countTask t arm) s fun s' =>
        let a := s'.dev.armSt arm
        a.uRef = (s.dev.armSt arm).uRef ∧ a.nUse = total (·.nUse) ∧ a.nFb = total (·.nFb) ∧ a.vSum = total (·.vSum)
          ∧ (∀ u, a.uRef = some u →
            (-(65536 * (a.nFb : Int)) ≤ a.mq ∧ a.mq ≤ 65536 * (a.nUse : Int)) ∧ (s.dev.pv P.mod_cell_mix = 0 → 0 ≤ a.mq)
            ∧ a.neg = decide (a.mq < 0) ∧ a.n ≤ (if a.neg then a.nFb else a.nUse)
            ∧ (s.dev.pv P.mod_frac_mode = 0 → a.f = 0)
            ∧ (s.dev.pv P.mod_frac_mode ≠ 0 → a.n * 65536 + a.f = min a.mq.natAbs ((if a.neg then a.nFb else a.nUse) * 65536))
            ∧ (0 < a.vSum → 0 < a.nUse → -(65536 * (a.nFb : Int)) ≤ 10 * u * a.nUse * 65536 / (a.vSum : Int) → 0 ≤ u →
                10 * u * a.nUse * 65536 / (a.vSum : Int) ≤ 65536 * (a.nUse : Int) → a.mq = 10 * u * a.nUse * 65536 / (a.vSum : Int)))
          ∧ (a.uRef = none → a.mq = (s.dev.armSt arm).mq ∧ a.n = (s.dev.armSt arm).n ∧ a.f = (s.dev.armSt arm).f ∧ a.sat = false)
          ∧ (a.nUse < s.dev.pn P.mod_n_min → bitN s'.dev.mode.causes 1 = true ∧ a.lossUp = true)
          ∧ a.blocks = (s.dev.armSt arm).blocks ∧ Task.count arm ∈ s'.dev.cyc.done ∧ Only [.cyc, .log, .out, .mode] t s s') ∧
  (∀ (s : State) (t g a : Nat) (ps : List Nat), g < 12 → s.dev.groups[g]? = some (a, ps) → (s.dev.armSt a).gathered = true →
      (s.dev.at t).critRuns a (.rank4 g) = true →
      let neg := (s.dev.armCount a).neg
      let charging := (s.dev.armSt a).dir != neg
      (∀ u, (s.dev.armSt a).uRef = some u → 0 ≤ u → neg = false) ∧
      Runs (.rank4Task t g) s fun s' =>
        (∀ p ∈ ps, ∀ key, (key, s.dev.segIn a, p) ∈ candidates (s.dev.armSt a).blocks neg →
          (∀ y ∈ candidates (s.dev.armSt a).blocks neg, y.2 = (s.dev.segIn a, p) → y.1 = key) →
          s'.dev.rankOf p = some ((candidates (s.dev.armSt a).blocks neg).filter fun y =>
            if y.1 = key then decide (y.2.1 < s.dev.segIn a ∨ (y.2.1 = s.dev.segIn a ∧ y.2.2 < p))
            else if charging then decide (y.1 < key) else decide (key < y.1)).length)
        ∧ (∀ p ∈ ps, (∀ y ∈ candidates (s.dev.armSt a).blocks neg, y.2 ≠ (s.dev.segIn a, p)) → s'.dev.rankOf p = none)
        ∧ (∀ x, (s.dev.tmplEntry x).map (·.slot) ≠ (s.dev.tmplEntry (.rank4 g)).map (·.slot) → s'.dev.slot x = s.dev.slot x)
        ∧ s'.dev.cyc.arms = s.dev.cyc.arms ∧ Task.rank4 g ∈ s'.dev.cyc.done ∧ Only [.cyc] t s s')

/-- R38, R41, R60 to R66, R78: BUILD4 makes the command frame of every cell of its group for target cycle k + d: its sequence
number, the safety-block bit, BLK outside DEBLOCKED, else the state of the cell's selection; its instants rise, at most
65,535 ticks after the cycle's start, and the frame waits for the port's next bit period. The model's choices in it: log
entries 47 and 118. -/
def Obligations.CommandFramesAreBuilt : Prop :=
  ∀ (s : State) (t g a : Nat) (ps : List Nat), g < 12 → s.dev.groups[g]? = some (a, ps) → s.dev.refMissing a = false →
    (s.dev.at t).critRuns a (.build4 g) = true →
    let target := s.dev.cyc.k + s.dev.depth
    Runs (.build4Task t g) s fun s' =>
      (∀ p ∈ ps, ∃ f : CmdFrame, (s'.dev.cell p).lastFrame = some (target, f) ∧ f.sb = s.tx.sb ∧ f.seq = target % 256
        ∧ f.fire = s.dev.fires p ∧ (s'.dev.cell p).last = (s.dev.selected p).1 ∧ f.a1 ≤ 65535
        ∧ ((s.dev.selected p).2 = false → f.s1 = (s.dev.selected p).1 ∧ f.second = none)
        ∧ (s.dev.mode.conv ≠ .deblocked → f.s1 = .blk ∧ f.second = none)
        ∧ ((s.dev.port p).raise = none → f.h = s.dev.holds ∧ f.epoch = s.dev.twin.epoch % 64)
        ∧ ((s.dev.cell p).lastInst < ((target * s.dev.tModTicks : Nat) : Int) + 65535 → (s.dev.cell p).lastInst < (s'.dev.cell p).lastInst)
        ∧ (s.dev.fullTraffic = true → s.dev.cyc.fallback = none → (s.dev.port p).commands = true → s.dev.sends s.tx p = true →
            (s'.dev.port p).sent.head? = some (target, f)
              ∧ (s'.dev.dl p).wait = ((s.at t).dev.dl p).wait ++ [⟨.cmd f, bitAfter (s.now t), none⟩]))
      ∧ (∀ p, p ∉ ps → s'.dev.cell p = s.dev.cell p ∧ s'.dev.port p = s.dev.port p ∧ s'.dev.dl p = (s.at t).dev.dl p)
      ∧ Task.build4 g ∈ s'.dev.cyc.done ∧ s'.dev.cyc.arms = s.dev.cyc.arms ∧ Only [.cyc, .cp, .down] t s s'

/-- R49, R194, R287, R314, R315: the arm lead's record of the last cycle of a control cycle, its band at the end of a window, the
output digest, and the records that arrive: stored for the arm, relayed once, or passed on toward the lead. The model's
choices in it: log entries 42 and 47. -/
def Obligations.RecordsBandAndDigest : Prop :=
  ∀ (s : State) (t : Nat),
    (∀ arm, arm < 6 → (s.dev.at t).critRuns arm (.armrec arm) = true → (s.dev.armSt arm).gathered = true →
      (s.dev.cyc.k + 1) % max 1 (s.dev.pn P.ctl_n_ctl) = 0 → Runs (.armrecTask t arm) s fun s' => ∃ r : ArmMeas,
        r.cycle = s.dev.cyc.k ∧ r.arm = arm ∧ r.red = (s.dev.armSt arm).warned ∧ r.band = (s.dev.armSt arm).bandNext
          ∧ r.nUse = (s.dev.armSt arm).blocks.foldl (fun n b => n + b.2.nUse) 0
          ∧ r.vSum = (s.dev.armSt arm).blocks.foldl (fun n b => n + b.2.vSum) 0 / 10
          ∧ r.sat = ((s.dev.armCount arm).sat && (s.dev.armSt arm).uRef.isSome)
          ∧ (∀ i, s.dev.armCurrent arm (s.dev.tOf (s.dev.cyc.k + 1)) = some i → r.iNext = clampInt (-2147483648) 2147483647 (milli i))
          ∧ (s.dev.armCurrent arm (s.dev.tOf (s.dev.cyc.k + 1)) = none → r.ok = false)
          ∧ (s.dev.convLead = true → s'.dev.ctl.meas.find arm = some r)
          ∧ (s.dev.convLead = false → s.dev.fullTraffic = true → ∀ p, s.dev.armRecPort = some p → s.dev.linkUp p = true →
              Waits p (.armRec r) s')
          ∧ s'.dev.cyc.sentRec = s.dev.cyc.sentRec ++ armMeasBytes r ∧ Task.armrec arm ∈ s'.dev.cyc.done
          ∧ Only [.cyc, .ctl, .fab, .openIx] t s s') ∧
    (∀ arm, arm < 6 → s.dev.leadsArm arm = true → (s.dev.armSt arm).lateSpread = none → (s.dev.armSt arm).gathered = true →
      s.dev.listed (.band arm) = true → Task.band arm ∉ s.dev.cyc.done → s.dev.pv P.mod_band_mode ≠ 0 →
      let a := s.dev.armSt arm
      let x := max a.sWin (armSpread a)
      (a.nWin + 1 < a.winLen → Runs (.bandTask t arm) s fun s' =>
        (s'.dev.armSt arm).sWin = x ∧ (s'.dev.armSt arm).nWin = a.nWin + 1 ∧ (s'.dev.armSt arm).band = a.band
          ∧ Task.band arm ∈ s'.dev.cyc.done ∧ Only [.cyc] t s s') ∧
      (a.winLen ≤ a.nWin + 1 → Runs (.bandTask t arm) s fun s' =>
        (s'.dev.armSt arm).sWin = 0 ∧ (s'.dev.armSt arm).nWin = 0 ∧ (s'.dev.armSt arm).bandSet = false
          ∧ (s'.dev.armSt arm).winLen = s.dev.pn P.mod_band_win
          ∧ (a.bandSet = false → (s'.dev.armSt arm).band = (if a.winLim < x then max a.winMin (a.band - a.band / 4)
              else if x < a.winLim - a.winLim / 4 then min a.winMax (a.band + max (a.band / 8) 50) else a.band))
          ∧ (a.bandSet = true → (s'.dev.armSt arm).band
              = max (s.dev.pn P.mod_band_min_mv) (min (s.dev.pn P.mod_band_max_mv) (s.dev.pn P.mod_band_mv)))
          ∧ Task.band arm ∈ s'.dev.cyc.done ∧ Only [.cyc] t s s')) ∧
    (s.dev.cyc.run = true → s.dev.cyc.lateDigest = none → s.dev.listed .digest = true → Task.digest ∉ s.dev.cyc.done →
      s.dev.cyc.judged = true ∨ (∀ a ∈ s.dev.arms, s.dev.critDone a = true) →
      Runs (.digestTask t) s fun s' => s'.dev.twin.digests.find s.dev.cyc.k = some s.dev.digest ∧ Task.digest ∈ s'.dev.cyc.done
        ∧ Only [.cyc, .twin] t s s') ∧
    (∀ (lane : Nat) (b : RefBlock), lane < 8 → b.present < 64 → Runs (.refRecReceive t lane b) s fun s' =>
      (∀ a, a ∈ s.dev.arms → bitN b.present a = true → b.cmds.getD a 0 ≠ 3 →
        (∀ x ∈ (s.dev.armSt a).refs, x.r.c0 = b.c0 → x.twin ≠ (lane / 2 == 2)) →
        (s'.dev.armSt a).refs = (⟨refRecord b a, s.now t, lane / 2 == 2⟩ :: (s.dev.armSt a).refs).take 16)
      ∧ (∀ a, a ∈ s.dev.arms → bitN b.present a = true → b.cmds.getD a 0 = 3 →
        (s'.dev.armSt a).refs = (s.dev.armSt a).refs ∧ (s'.dev.armSt a).late = (s.dev.armSt a).late + 1)
      ∧ (lane / 2 ≠ 2 → b.c0 ∉ s.dev.ctl.seenRef → ∀ q, q = 2 ∨ q ∈ s.dev.refPorts (some (lane / 2)) → s.dev.linkUp q = true →
          Waits q (.refRec b) s')
      ∧ ((lane / 2 = 2 ∨ b.c0 ∈ s.dev.ctl.seenRef) → s'.dev.fab.links = (s.at t).dev.fab.links)
      ∧ Only [.cyc, .fab, .ctl] t s s') ∧
    (∀ (lane : Nat) (r : ArmMeas), lane < 8 → r.arm < 6 → lane / 2 ≠ 2 →
      (s.dev.convLead = true → Runs (.armRecReceive t lane r) s fun s' =>
        s'.dev.ctl.meas.find r.arm = some r ∧ Only [.fab, .ctl] t s s') ∧
      (∀ p, s.dev.convLead = false → s.dev.armRecPort = some p → p ≠ lane / 2 → s.dev.linkUp p = true → Runs (.armRecReceive t lane r) s fun s' =>
        (s'.dev.link p).tx.map (·.blk) = ((s.at t).dev.link p).tx.map (·.blk) ++ [.armRec r] ∧ Only [.fab] t s s'))

/-- R45, R46, R69 to R71, R161, R239: DLY4 takes every edge of its cells that the snapshot of t_k holds: one in the window of a
commanded transition moves that class's delay by the shift and one too far from the estimate is rejected, a window that ends
without an edge is a switching failure. CAP4 closes an insertion at the output after its end: the capacitance moves by its
share toward charge over voltage change where that lies within half and one and a half times nominal, is rejected outside,
and stays where the change is too small. The model's choices in it: log entries 10, 46, 118 and 119. -/
def Obligations.DelaysAndCapacitancesAreLearnt : Prop :=
  (∀ (s : State) (t g p : Nat), g < 12 → g < s.dev.groups.length → s.dev.carryRuns (.dly4 g) = true → p ∈ s.dev.groupCells g →
       let c := s.dev.cell p
       let ct := s.dev.chain (48 + p)
       let wait : Int := (ticksOfNs (s.dev.pn P.mod_edge_timeout_ns) : Nat)
       (ct.perm = true → Runs (.dly4Task t g) s fun s' => s'.dev.cell p = { c with trans := [] }
         ∧ (s'.dev.chain (48 + p)).edges = ct.edges.filter fun e => !s.dev.snapHolds e.rel) ∧
       (∀ (x : Int) (old new : CellCmd) (e : EdgeRec) (i : F32), ct.perm = false → ct.edges = [e] → s.dev.snapHolds e.rel = true →
         c.trans = [(x, old, new)] → x ≤ e.t → e.t ≤ x + wait → isDirect old new = false → (polarity new != 0) = e.entry →
         s.dev.transSuspended p (x, old, new) = false →
         s.dev.armCurrent (s.dev.portArm p) e.t = some i → f32lt (f32abs i) (f32ofInt (s.dev.pv P.mod_dly_imin_a)) = false →
         let cls := dlyClass new (!f32lt i f0)
         let cur := cellDelay c s.dev.gTicks cls
         ((e.t - x - cur).natAbs ≤ ticksOfNs (s.dev.pn P.mod_dly_reject_ns) → Runs (.dly4Task t g) s fun s' =>
           cellDelay (s'.dev.cell p) s.dev.gTicks cls = clampInt 0 s.dev.gTicks (cur + (e.t - x - cur) / 2 ^ s.dev.pn P.mod_dly_shift)
             ∧ (s'.dev.cell p).trans = [] ∧ (s'.dev.cell p).swFail = 0 ∧ (s'.dev.chain (48 + p)).edges = []
             ∧ (Task.dly4 g ∈ s'.dev.cyc.done ∨ Task.dly4 g ∈ s'.dev.cyc.done1)) ∧
         (ticksOfNs (s.dev.pn P.mod_dly_reject_ns) < (e.t - x - cur).natAbs → c.dlyRej.getD cls 0 < 15 → Runs (.dly4Task t g) s fun s' =>
           cellDelay (s'.dev.cell p) s.dev.gTicks cls = cur ∧ (s'.dev.cell p).dlyRej.getD cls 0 = c.dlyRej.getD cls 0 + 1
             ∧ Raised Ev.MOD_DLY_REJECT s s')) ∧
       (∀ (x : Int) (old new : CellCmd) (o : Sample), ct.perm = false → ct.edges = [] → c.trans = [(x, old, new)] →
         s.dev.cyc.snapMeas.find (48 + p) = some o →
         x + wait ≤ ((o.rel : Int) / 2 - 4) * 625 → isDirect old new = false → s.dev.transSuspended p (x, old, new) = false →
         polarity old ≠ polarity new → bitN s.dev.mode.causes 0 = false → c.swFail < 2 → Runs (.dly4Task t g) s fun s' =>
           (s'.dev.cell p).swFail = c.swFail + 1 ∧ (s'.dev.cell p).trans = [] ∧ Raised Ev.MOD_SWITCH_FAIL s s')) ∧
  (∀ (s : State) (t g p : Nat) (b x : CapSample) (o : CapRun) (q : F32) (e : Int) (dest : CellCmd), g < 12 → g < s.dev.groups.length →
       s.dev.carryRuns (.cap4 g) = true → p ∈ s.dev.groupCells g →
       (s.dev.cell p).capLast = some b → (s.dev.cell p).capQ = [x] → s.dev.snapHolds x.rel = true → (s.dev.cell p).open_ = some o →
       ((s.dev.cell p).sched.filter fun y => decide (b.t < y.1) && decide (y.1 ≤ x.t)) = [(e, dest)] → polarity dest = 0 → x.ok = true →
       s.dev.capCharge p b.t x.t = some q →
       let c := s.dev.cell p
       let nom := f32ofRat (s.dev.pn P.mod_cap_nom_uf) 1000000
       let dv := f32sub x.v o.v0
       let cw := f32div (f32add o.dq q) dv
       let within := f32le (f32mul fHalf nom) cw && f32le cw (f32mul (f32ofRat 3 2) nom)
       (f32lt (f32abs dv) (f32ofRat o.dvMin 1000) = true → Runs (.cap4Task t g) s fun s' =>
         s'.dev.cell p = { c with capQ := [], capLast := some x, open_ := none }
           ∧ (Task.cap4 g ∈ s'.dev.cyc.done ∨ Task.cap4 g ∈ s'.dev.cyc.done1)) ∧
       (f32lt (f32abs dv) (f32ofRat o.dvMin 1000) = false →
         (within = true → Runs (.cap4Task t g) s fun s' =>
           (s'.dev.cell p).cap = f32add (s.dev.capOf c) (f32div (f32sub cw (s.dev.capOf c)) (f32ofInt (2 ^ o.shift)))
             ∧ (s'.dev.cell p).capReject = c.capReject ∧ (s'.dev.cell p).open_ = none ∧ Only [.cyc, .log, .out] t s s') ∧
         (within = false → Runs (.cap4Task t g) s fun s' =>
           s'.dev.cell p = { c with capQ := [], capLast := some x, open_ := none, capReject := c.capReject + 1 }
             ∧ Only [.cyc, .log, .out] t s s')))

/-- R243, R245, R254 to R259: a watchdog stop adds 64 to the bucket of the reed that runs the task and reruns it elsewhere, a
failed self-test retires the reed, the rotation moves to the next reed, a theft moves the tasks that its rule gives and no
other number, and CYC_REED_RESTORE takes a reed back. The model's choices in it: log entries 10, 67, 85 and 131. -/
def Obligations.ReedsFailAndReturn : Prop :=
  ∀ (s : State) (t reed : Nat), reed < 64 →
    (∀ x, s.dev.reedOf x = some reed → x ∉ s.dev.cyc.done → (s.dev.reed reed).bucket + 64 < min 65536 (s.dev.pn P.cyc_reed_err_limit) →
      Runs (.taskWatchdog t reed x) s fun s' =>
        s'.dev.reed reed = { s.dev.reed reed with bucket := (s.dev.reed reed).bucket + 64, erred := true, reruns := (s.dev.reed reed).reruns + 1 }
          ∧ Raised Ev.CYCLE_TASK_RERUN s s' ∧ s'.dev.cyc.done = s.dev.cyc.done ∧ s'.dev.par = s.dev.par
          ∧ (taskClass x = .crit ∨ taskClass x = .carry → ∀ n r, s.dev.cyc.reserve = n :: r →
              s'.dev.cyc.crit = s.dev.cyc.crit.map fun y => if y = reed then n else y)
          ∧ Only [.cyc, .que, .log, .out] t s s') ∧
    (∀ x, s.dev.reedOf x = some reed → x ∉ s.dev.cyc.done → bitN s.dev.par.retReeds reed = false →
      s.dev.pn P.cyc_reed_err_limit ≤ min 65535 ((s.dev.reed reed).bucket + 64) →
      Runs (.taskWatchdog t reed x) s fun s' =>
        bitN s'.dev.par.retReeds reed = true ∧ Raised Ev.CYCLE_REED_RETIRED s s' ∧ Raised Ev.CYCLE_TASK_RERUN s s'
          ∧ s'.dev.par.active = s.dev.par.active ∧ s'.safe = s.safe) ∧
    (∀ v l, (s.dev.at t).stealPlan reed = some (v, l) → 1 ≤ l.length → l.length ≤ 8 → Runs (.reedSteal t reed l.length) s fun s' =>
      s'.dev.reed reed = { s.dev.reed reed with steals := (s.dev.reed reed).steals + BitVec.ofNat 32 l.length }
        ∧ s'.dev.dequeOf reed = l.reverse ∧ s'.dev.dequeOf v = (s.dev.dequeOf v).filter (fun x => !l.contains x)
        ∧ (∀ j, j ≠ reed → j ≠ v → s'.dev.dequeOf j = s.dev.dequeOf j) ∧ Only [.cyc] t s s') ∧
    (∀ n, 1 ≤ n → n ≤ 8 → (∀ v l, (s.dev.at t).stealPlan reed = some (v, l) → l.length ≠ n) → Runs (.reedSteal t reed n) s (Only [] t s)) ∧
    (s.dev.cyc.testing = some reed → Runs (.selftestSlot t true) s fun s' =>
      (s'.dev.reed reed).passes = (s.dev.reed reed).passes + 1 ∧ s'.dev.par = s.dev.par ∧ Only [.cyc, .twin] t s s') ∧
    (s.dev.cyc.testing = some reed → s.dev.cyc.nextTest = (reed + 1) % 64 → bitN s.dev.par.retReeds reed = false → Runs (.selftestSlot t false) s fun s' =>
      (s'.dev.reed reed).fails = (s.dev.reed reed).fails + 1 ∧ bitN s'.dev.par.retReeds reed = true
        ∧ Raised Ev.CYCLE_SELFTEST_FAIL s s' ∧ Raised Ev.CYCLE_REED_RETIRED s s' ∧ s'.dev.twin.selfFail = true) ∧
    (s.dev.cyc.testing = none → s.dev.pv P.cyc_selftest = 1 → s.dev.cyc.nextTest = reed → bitN s.dev.par.retReeds reed = false →
      s.dev.reedDomainOff reed = false → ∀ b, Runs (.selftestSlot t b) s fun s' =>
        s'.dev.cyc.testing = some reed ∧ s'.dev.cyc.nextTest = (reed + 1) % 64 ∧ reed ∉ s'.dev.usableReeds ∧ Only [.cyc] t s s') ∧
    (∀ c, s.dev.accepts c 0x0090 →
      (s.dev.mode.conv = .deEnergised → bitN s.dev.par.retReeds reed = true → Runs (.cycReedRestore t c reed true) s fun s' =>
        bitN s'.dev.par.retReeds reed = false ∧ Answered c 0x0090 (stRes Sc.DONE) s s' ∧ (s'.dev.reed reed).bucket = 0
          ∧ (∀ i, i < 64 → i ≠ reed → bitN s'.dev.par.retReeds i = bitN s.dev.par.retReeds i) ∧ s'.safe = s.safe) ∧
      (s.dev.mode.conv = .deEnergised → bitN s.dev.par.retReeds reed = true → Runs (.cycReedRestore t c reed false) s fun s' =>
        s'.dev.par = s.dev.par ∧ Answered c 0x0090 (stRes Sc.SELFTEST_FAIL) s s' ∧ Raised Ev.CYCLE_SELFTEST_FAIL s s') ∧
      (s.dev.mode.conv ≠ .deEnergised → ∀ pass, Runs (.cycReedRestore t c reed pass) s fun s' =>
        Answered c 0x0090 (stRes Sc.STATE) s s' ∧ Only [.host] t s s') ∧
      (∀ pass n, 64 ≤ n → Runs (.cycReedRestore t c n pass) s fun s' => Answered c 0x0090 (stRes Sc.RANGE) s s' ∧ Only [.host] t s s'))

/-! ## The cell ports (chapter 3) -/

/-- Table 03-5, R89, R102, R106, R107, R109, R110, R129: each stage ends on its own condition and the next one begins with its
CTRL operations; a bring-up sets both scramblers and takes link.asym_ps; a wide spread of the ECHO results repeats MEASURE in
its own time and the third one fails it, and t_down holds the stage above 2,600 ns; a cell head that fails a check stays in
CAP, and one that differs in a retrain is brought up in full; a stage whose time has passed restarts at LOCK. The model's
choices in it: log entries 10, 83, 112 and 113. -/
def Obligations.PortsComeUpStageByStage : Prop :=
  ∀ (s : State) (t p : Nat), p < 48 → (s.dev.port p).retired = false →
    let x := s.dev.port p
    let lo := x.echoes.foldl min (x.echoes.getD 0 0)
    let hi := x.echoes.foldl max (x.echoes.getD 0 0)
    let mean := x.echoes.foldl (· + ·) 0 / (x.echoes.length : Int)
    let down := (mean - x.trx - x.ttx + x.asym) / 2
    (x.stage = .listen → s.dev.decided = true → x.heard = true → x.retrain = none → Runs (.portStageExit t p) s fun s' =>
      (s'.dev.port p).stage = .lock ∧ (s'.dev.port p).asym = s.dev.pv P.link_asym_ps ∧ (s'.dev.port p).rx = BitVec.allOnes 17
        ∧ (s'.dev.dl p).scr = BitVec.allOnes 17 ∧ Only [.cp, .down] t s s') ∧
    (x.stage = .listen → s.dev.decided = false → Runs (.portStageExit t p) s fun s' => Only [] t s s') ∧
    (x.stage = .lock → 8 ≤ x.goodRun → Runs (.portStageExit t p) s fun s' =>
      (s'.dev.port p).stage = .measure ∧ (s'.dev.port p).ctrl = List.replicate 16 (.echo, 0, 0) ∧ (s'.dev.port p).echoes = []
        ∧ (s'.dev.dl p).echo = none ∧ Only [.cp, .down] t s s') ∧
    (x.stage = .measure → 16 ≤ x.echoes.length →
      (hi - lo ≤ 1000 → x.caps.find 2 = none ∨ down ≤ 2600000 → Runs (.portStageExit t p) s fun s' =>
        (s'.dev.port p).stage = .cap ∧ (s'.dev.port p).loopPs = mean - x.trx - x.ttx ∧ s'.dev.tDown p = down
          ∧ (x.retrain = none → (s'.dev.port p).ctrl = (List.range 12).map fun a => (.read, a, 0))
          ∧ (x.retrain ≠ none → (s'.dev.port p).ctrl = [(.read, 0, 0), (.read, 1, 0)]) ∧ Only [.cp, .log, .out] t s s') ∧
      (hi - lo ≤ 1000 → x.caps.find 2 ≠ none → 2600000 < down → Runs (.portStageExit t p) s fun s' =>
        (s'.dev.port p).stage = .measure ∧ (s'.dev.port p).began = x.began ∧ s'.dev.tDown p = down ∧ Only [.cp, .log, .out] t s s') ∧
      (1000 < hi - lo → x.spreads < 2 → Runs (.portStageExit t p) s fun s' =>
        (s'.dev.port p).stage = .measure ∧ (s'.dev.port p).spreads = x.spreads + 1 ∧ (s'.dev.port p).began = x.began
          ∧ Only [.cp, .down] t s s') ∧
      (1000 < hi - lo → 2 ≤ x.spreads → Runs (.portStageExit t p) s fun s' =>
        (s'.dev.port p).stage = .lock ∧ (s'.dev.port p).spreads = 0 ∧ Only [.cp, .down] t s s')) ∧
    (x.stage = .cap → x.retrain = none → (∀ a, a < 12 → a ∈ x.read) →
      (s.dev.capOk x = true → x.tDown ≤ 2600000 → Runs (.portStageExit t p) s fun s' =>
        (s'.dev.port p).stage = (if s.dev.holds then .config else .align) ∧ (s'.dev.port p).capBad = false
          ∧ (s.dev.holds = true → (s'.dev.port p).ctrl.map (·.2.1) = [0x20, 0x21, 0x22, 0x23]) ∧ Only [.cp, .log, .out] t s s') ∧
      (s.dev.capOk x = false → x.capBad = false → Runs (.portStageExit t p) s fun s' =>
        (s'.dev.port p) = { x with capBad := true } ∧ s'.dev.usableCell p = false ∧ Logged Ev.LINK_CAP_REJECT (s.dev.cellEv p) s s'
          ∧ Only [.cp, .log, .out] t s s')) ∧
    (x.stage = .cap → x.retrain ≠ none → 0 ∈ x.read → 1 ∈ x.read → Runs (.portStageExit t p) s fun s' =>
      (x.boots = false → (s'.dev.port p).stage = .align ∧ (s'.dev.port p).retrain = x.retrain) ∧
      (x.boots = true → (s'.dev.port p).stage = .lock ∧ (s'.dev.port p).retrain = none) ∧ Only [.cp, .down] t s s') ∧
    (x.stage = .config → (∀ a, 0x20 ≤ a → a ≤ 0x23 → a ∈ x.written) → Runs (.portStageExit t p) s fun s' =>
      (s'.dev.port p).stage = .align ∧ (s.dev.holds = true → (s'.dev.port p).ctrl = [(.syncEpoch, 0, 0), (.syncCycle, 0, 0)])
        ∧ Only [.cp] t s s') ∧
    (x.stage = .align → 16 ≤ x.alignN → x.retrain = none → Runs (.portStageExit t p) s fun s' =>
      (s'.dev.port p).stage = .start ∧ (s'.dev.port p).aim = (((s.at t).dev.dl p).phi : Int) * 250 + x.tDown
        ∧ (s.dev.holds = true → (s'.dev.port p).ctrl = [(.start, 0, 0)]) ∧ Only [.cp] t s s') ∧
    (x.stage = .align → 16 ≤ x.alignN → x.retrain ≠ none → Runs (.portStageExit t p) s fun s' =>
      (s'.dev.port p).stage = .run ∧ (s'.dev.port p).retrain = none ∧ Logged Ev.LINK_UP (s.dev.cellEv p) s s' ∧ Only [.cp, .log, .out] t s s') ∧
    (x.stage = .start → x.head = 2 ∨ (s.dev.holds = false ∧ x.head = 3) → Runs (.portStageExit t p) s fun s' =>
      (s'.dev.port p).stage = .run ∧ (s'.dev.port p).commands = true ∧ Logged Ev.LINK_UP (s.dev.cellEv p) s s'
        ∧ Only [.cp, .log, .out] t s s') ∧
    (∀ us, portTimeout x.stage = some us → x.began + ticksOfUs us ≤ s.now t → (x.stage = .cap → x.capBad = false) →
      (x.stage = .lock → x.heard = true) → Runs (.portStageTimeout t p) s fun s' =>
        (s'.dev.port p).stage = .lock ∧ (s'.dev.port p).began = s.now t ∧ Only [.cp, .down] t s s')

/-- R88 to R91, R95, R97, R102, R108, R110: a RESP frame, received from its line bits, gives the result of the ECHO under way, a
register as read, a performed configuration write, or the code of a SYNC operation. R98, R122, R123, R128, R135: a valid data
frame is a good frame: it takes 1 from the port's bucket, and its state, accepted epoch, sequence number, status item and
streams are held; a bad one adds 64, 8 in the place of expected data frames in a row take the port down, and a full bucket
retires it. The model's choices in it: log entries 10, 84, 109, 110, 112, 114 and 117. -/
def Obligations.UplinkFramesAnswerAndAreCounted : Prop :=
  (∀ (s : State) (t p data addr arr dataArr : Nat) (line : List Bool) (r : BitVec 17), p < 48 → (s.dev.port p).stage ≠ .off →
      receiveUp (s.dev.port p).rx line = (some (.resp addr data), r) →
      let x := s.dev.port p
      (∀ t0, x.stage = .measure → addr = 0xF3 → ((s.at t).dev.dl p).echo = some t0 → Runs (.uplinkRespFrame t p arr dataArr line) s fun s' =>
        s'.dev.port p = { x with rx := r, echoes := x.echoes ++ [(dataArr : Int) * 250 - (t0 : Int) * 50 - (data : Int) * 4000] }
          ∧ (s'.dev.dl p).echo = none ∧ Only [.cp, .down] t s s') ∧
      (addr < 0x20 → Runs (.uplinkRespFrame t p arr dataArr line) s fun s' =>
        (s'.dev.port p).caps.get 0 addr = data ∧ addr ∈ (s'.dev.port p).read
          ∧ (∀ a, a ≠ addr → (s'.dev.port p).caps.get 0 a = x.caps.get 0 a)
          ∧ (x.retrain ≠ none → addr < 2 → x.caps.get 0 addr ≠ data → (s'.dev.port p).boots = true) ∧ Only [.cp] t s s') ∧
      (x.stage = .config → 0x20 ≤ addr → addr < 0xF3 → (addr, data) ∈ s.dev.cfgWrites p → Runs (.uplinkRespFrame t p arr dataArr line) s fun s' =>
        addr ∈ (s'.dev.port p).written ∧ Only [.cp] t s s') ∧
      (addr = 0xF4 ∨ addr = 0xF5 → Runs (.uplinkRespFrame t p arr dataArr line) s fun s' =>
        (s'.dev.port p).synced = (if data = 0 then min 2 (x.synced + 1) else x.synced) ∧ (s'.dev.port p).rx = r ∧ Only [.cp] t s s')) ∧
  (∀ (s : State) (t p : Nat), p < 48 → (s.dev.port p).stage ≠ .off →
      let x := s.dev.port p
      let own := if s.dev.letterB then 4 else 3
      (∀ (arr : Nat) (line : List Bool) (f : UpData) (r : BitVec 17), receiveUp x.rx line = (some (.data f), r) →
        Runs (.uplinkDataFrame t p arr line) s fun s' =>
          (s'.dev.port p).good = x.good + 1 ∧ (s'.dev.port p).badRun = 0
            ∧ (f.idx ≠ own → (s'.dev.port p).bucket = x.bucket - 1) ∧ (s'.dev.port p).head = f.state
            ∧ (s'.dev.port p).accEpoch = f.epoch ∧ (s'.dev.port p).committed = f.seq ∧ (s'.dev.port p).goff = f.goff
            ∧ (f.state ≠ 1 → (s'.dev.port p).items.get 0 f.idx = f.val)
            ∧ (x.stage = .run → (s.dev.at t).ctBy (s.dev.epochOf p arr * 1000 + 3400) = true →
                (s'.dev.meas.blocks.get {} p).own.head? = some (s.dev.epochOf p arr, f.d0, f.d1))
            ∧ (f.state = 4 → x.head ≠ 4 → Raised Ev.LINK_CH_FAULT s s'
                ∧ (s.dev.duplex = false → s.dev.cellAt p = true → bitN s.dev.par.retCells p = false → (s.dev.cell p).lost = false →
                    (s.dev.cell p).retiring = none → (s'.dev.cell p).retiring
                      = some (if (s.dev.armSt (s.dev.portArm p)).own.isSome then s.dev.cyc.k + 1 else s.dev.cyc.k)))
            ∧ (f.state = 1 → x.stage = .run → x.retired = false → f.idx ≠ own →
                (s'.dev.port p).stage = .lock ∧ Raised Ev.LINK_DOWN s s' ∧ Raised Ev.LINK_RETRAIN_FAIL s s')
            ∧ (f.idx = 0 → bitN f.val 3 = true → Raised Ev.LINK_MISMATCH s s')
            ∧ (f.idx = 2 → f.val ≠ 0 → x.items.get 0 2 = 0 → Raised Ev.LINK_CH_HEALTH s s')
            ∧ Only [.cp, .down, .log, .out, .mode, .meas, .twin, .par, .cyc, .fab] t s s') ∧
      (x.retired = false → x.bucket + 64 < s.dev.pn P.link_err_limit → x.bucket + 64 < 65536 →
        let expected := fun (arr : Nat) => match x.moved arr with
          | some m => decide (m.natAbs ≤ 32)
          | none => true
        (∀ (u : UpLine) (r : BitVec 17), u.port = p → receiveUp x.rx u.line = (none, r) →
          (expected u.arr = true → x.badRun < 7 → Runs (.uplinkFrameInvalid t u) s fun s' =>
            s'.dev.port p = { x with rx := r, bucket := x.bucket + 64, bad := x.bad + 1, badRun := x.badRun + 1, goodRun := 0, alignN := 0 }
              ∧ Only [.cp] t s s') ∧
          (expected u.arr = false → Runs (.uplinkFrameInvalid t u) s fun s' =>
            s'.dev.port p = { x with rx := r, bucket := x.bucket + 64, bad := x.bad + 1 } ∧ Only [.cp] t s s') ∧
          (expected u.arr = true → x.stage = .run → 7 ≤ x.badRun → Runs (.uplinkFrameInvalid t u) s fun s' =>
            (s'.dev.port p).stage = .lock ∧ (s'.dev.port p).retrain = some (s.now t) ∧ (s'.dev.port p).retrains = x.retrains + 1
              ∧ Logged Ev.LINK_DOWN (s.dev.cellEv p) s s' ∧ Only [.cp, .log, .out] t s s')) ∧
        (x.stage ≠ .listen → x.badRun < 7 → Runs (.uplinkFrameMissing t p) s fun s' =>
          s'.dev.port p = { x with bucket := x.bucket + 64, bad := x.bad + 1, badRun := x.badRun + 1, goodRun := 0, alignN := 0 }
            ∧ Only [.cp] t s s')) ∧
      (x.stage = .run → x.retired = false → Runs (.portReceiverLockLoss t p) s fun s' =>
        (s'.dev.port p).stage = .lock ∧ (s'.dev.port p).retrain = some (s.now t) ∧ Logged Ev.LINK_DOWN (s.dev.cellEv p) s s'
          ∧ Only [.cp, .log, .out] t s s') ∧
      (∀ (u : UpLine) (r : BitVec 17), u.port = p → receiveUp x.rx u.line = (none, r) → x.retired = false →
        s.dev.pn P.link_err_limit ≤ x.bucket + 64 → Runs (.uplinkFrameInvalid t u) s fun s' =>
          (s'.dev.port p).retired = true ∧ bitN s'.dev.par.retPorts p = true ∧ (s.dev.duplex = false → s'.dev.usableCell p = false)
            ∧ Raised Ev.LINK_PORT_RETIRED s s' ∧ s'.safe = s.safe))

/-- R104, R124 to R126: a retrain that has run 2 ms fails, and the eighth failure within 10 s retires the port; a retired port
sends fill from 1 s on; the phase shifter makes one step toward its aim and never a second one within 100 µs; a port that has
been made unusable is aligned again. The model's choices in it: log entries 10, 83, 84, 112 and 114. -/
def Obligations.PortsRetrainTrackAndRetire : Prop :=
  ∀ (s : State) (t p : Nat), p < 48 →
    let x := s.dev.port p
    let l := (s.at t).dev.dl p
    let recentFails := x.failTimes.filter fun t0 => decide (s.now t < t0 + ticksOfS 10)
    (∀ t0, x.retrain = some t0 → t0 + ticksOfMs 2 ≤ s.now t → x.stage ≠ .run → x.retired = false →
      (recentFails.length < 7 → Runs (.retrainTimeout t p) s fun s' =>
        (s'.dev.port p).stage = .lock ∧ (s'.dev.port p).retrain = some (s.now t) ∧ (s'.dev.port p).retrainFails = x.retrainFails + 1
          ∧ Logged Ev.LINK_RETRAIN_FAIL (s.dev.cellEv p) s s' ∧ Only [.cp, .log, .out] t s s') ∧
      (7 ≤ recentFails.length → Runs (.retrainTimeout t p) s fun s' =>
        (s'.dev.port p).retired = true ∧ bitN s'.dev.par.retPorts p = true ∧ Raised Ev.LINK_PORT_RETIRED s s' ∧ s'.safe = s.safe)) ∧
    (x.retired = true → x.fillOnly = false → x.retiredAt + ticksOfS 1 ≤ s.now t → Runs (.portRetireFill t p) s fun s' =>
      s'.dev.port p = { x with fillOnly := true } ∧ s'.dev.out = (s.at t).dev.out ++ [.fill p] ∧ s'.dev.sends s.tx p = false
        ∧ Only [.cp, .out] t s s') ∧
    (x.stage = .run → s.dev.holds = true → (l.phiAt = 0 ∨ l.phiAt + ticksOfUs 100 ≤ s.now t) → 0 < l.phi → l.phi < 63 →
      let e := x.aim - ((l.phi : Int) * 250 + s.dev.tDown p)
      Runs (.phaseTrackStep t p) s fun s' =>
        (s'.dev.dl p).phi = (if 125 < e then l.phi + 1 else if e < -125 then l.phi - 1 else l.phi)
          ∧ (e.natAbs ≤ 125 → s'.dev.dl p = l) ∧ (125 < e.natAbs → (s'.dev.dl p).phiAt = s.now t) ∧ Only [.down] t s s') ∧
    (l.phiAt ≠ 0 → s.now t < l.phiAt + ticksOfUs 100 → Runs (.phaseTrackStep t p) s fun s' => Only [] t s s') ∧
    (x.stage = .run → s.dev.holds = true → (l.phiAt = 0 ∨ l.phiAt + ticksOfUs 100 ≤ s.now t) → l.phi = 63 → x.mustAlign = false →
      125 < x.aim - (63 * 250 + s.dev.tDown p) → Runs (.phaseTrackStep t p) s fun s' =>
        (s'.dev.port p).mustAlign = true ∧ s'.dev.usableCell p = false ∧ Logged Ev.LINK_DELAY_STEP (s.dev.cellEv p) s s'
          ∧ Only [.cp, .log, .out] t s s') ∧
    (x.mustAlign = true → x.stage = .run → Runs (.portRealign t p) s fun s' =>
      (s'.dev.port p).mustAlign = false ∧ (s'.dev.port p).realign = some 16
        ∧ (s.dev.holds = true → (s'.dev.port p).ctrl = x.ctrl ++ [(.syncEpoch, 0, 0), (.syncCycle, 0, 0)]) ∧ Only [.cp, .meas] t s s')

/-- R92, R93, R103, R248, R308: on a port on which no frame waits a CTRL frame carries the operation that waits, or NOP, and none
starts between t_k + 1.5 µs and the cycle's command frame; SYNC_EPOCH and SYNC_CYCLE take the bit period and the setting that
R103 asks for; the fallback generator sends CMD1 with BLK at offset 0 for the cycle's target, with the h bit and epoch it was
started with. The model's choice in it: log entry 17. -/
def Obligations.DownlinkFramesOfAPort : Prop :=
  ∀ (s : State) (t p : Nat), p < 48 → s.dev.sends s.tx p = true →
    let x := s.dev.port p
    let l := (s.at t).dev.dl p
    let b := max (bitAfter (s.now t)) l.busy
    let waits := fun (s' : State) (f : CtrlFrame) (at_ : Nat) (phi : Option Nat) =>
      f.sb = s.tx.sb ∧ (s'.dev.dl p).wait = [⟨.ctrl f, at_, phi⟩]
    let held := s.dev.holds = true
    (l.wait ≠ [] ∨ (s.at t).dev.ctrlClosed p b = true → Runs (.ctrlFrameSend t p) s fun s' => Only [] t s s') ∧
    (l.wait = [] → (s.at t).dev.ctrlClosed p b = false →
      (x.ctrl = [] → Runs (.ctrlFrameSend t p) s fun s' => (∃ f, waits s' f (bitAfter (s.now t)) none ∧ f.op = .nop) ∧ Only [.down] t s s') ∧
      (∀ op a v r, x.ctrl = (op, a, v) :: r → x.stage ≠ .listen → x.stage ≠ .lock →
        (op = .read ∨ (op = .echo ∧ l.echo = none) ∨ (op = .write ∧ held) ∨ (op = .start ∧ held) ∨ (op = .reset ∧ held) →
          Runs (.ctrlFrameSend t p) s fun s' => (s'.dev.port p).ctrl = r
            ∧ (∃ f, waits s' f b none ∧ f.op = op ∧ (op ≠ .echo → f.addr = a ∧ f.data = v)) ∧ Only [.cp, .down] t s s') ∧
        (∀ b' phi n, op = .syncEpoch → held → (s.at t).dev.syncEpoch p b = some (b', phi, n) → Runs (.ctrlFrameSend t p) s fun s' =>
          (s'.dev.port p).ctrl = r ∧ b ≤ b' ∧ 16 ≤ phi ∧ phi ≤ 31 ∧ n ≤ 249
            ∧ (∃ f, waits s' f b' (some phi) ∧ f.op = .syncEpoch ∧ f.data = n) ∧ Only [.cp, .down] t s s') ∧
        (∀ b' c n, op = .syncCycle → held → (s.at t).dev.syncCycle p b = some (b', c, n) → Runs (.ctrlFrameSend t p) s fun s' =>
          (s'.dev.port p).ctrl = r ∧ b ≤ b'
            ∧ (∃ f, waits s' f b' none ∧ f.op = .syncCycle ∧ f.addr = c % 256 ∧ f.data = n) ∧ Only [.cp, .down] t s s') ∧
        ((op = .echo ∧ l.echo ≠ none) ∨ (op ≠ .read ∧ op ≠ .echo ∧ op ≠ .nop ∧ s.dev.holds = false) → Runs (.ctrlFrameSend t p) s fun s' =>
          (s'.dev.port p).ctrl = x.ctrl ∧ (∃ f, waits s' f (bitAfter (s.now t)) none ∧ f.op = .nop) ∧ Only [.down] t s s'))) ∧
    (∀ g, s.dev.cyc.fallback = some g → x.commands = true → g.first ≤ s.dev.cyc.k + s.dev.depth → s.dev.cyc.tk + ticksOfNs 1500 ≤ s.now t →
      (∀ f ∈ x.sent, f.1 ≠ s.dev.cyc.k + s.dev.depth) → Runs (.fallbackGeneratorFrame t p) s fun s' =>
        let f : CmdFrame := ⟨s.tx.sb, g.h, g.epoch % 64, false, (s.dev.cyc.k + s.dev.depth) % 256, .blk, 0, none⟩
        (s'.dev.dl p).wait = l.wait ++ [⟨.cmd f, bitAfter (s.now t), none⟩]
          ∧ (s'.dev.port p).sent.head? = some (s.dev.cyc.k + s.dev.depth, f) ∧ Only [.cp, .down] t s s')

/-- R22, R67, R75, R76, R78, R79, R304: CELL_RETIRE fails the cell in the cycle in progress, or in the next one once the own
block has published it, where no twin has to agree; a health warning of 10 s meets its criterion; an unconfirmed bypass makes
the cell lost; CELL_RESTORE in DE-ENERGISED starts the cell and its port anew. The model's choices in it: log entries 10, 59,
84, 117 and 120. -/
def Obligations.CellsRetireAndReturn : Prop :=
  ∀ (s : State) (t : Nat),
    (∀ c arm seg p, s.dev.accepts c 0x0050 →
      (s.dev.ownCell arm seg p = false → Runs (.cellRetire t c arm seg p) s fun s' => Answered c 0x0050 (stRes Sc.RANGE) s s' ∧ Only [.host] t s s') ∧
      (s.dev.ownCell arm seg p = true → bitN s.dev.par.retCells p = false → (s.dev.cell p).lost = false → (s.dev.cell p).retiring = none →
        (s.dev.duplex = false → Runs (.cellRetire t c arm seg p) s fun s' =>
          (s'.dev.cell p).retiring = some (if (s.dev.armSt arm).own.isSome then s.dev.cyc.k + 1 else s.dev.cyc.k)
            ∧ s'.dev.usableCell p = false ∧ Answered c 0x0050 (stRes Sc.DONE) s s' ∧ Only [.cyc, .host] t s s') ∧
        (s.dev.duplex = true → s.dev.decided = true → (∀ x ∈ s.dev.twin.changes, x.port = p → x.kind ≠ .fail) →
          Runs (.cellRetire t c arm seg p) s fun s' =>
            s'.dev.twin.changes = s.dev.twin.changes ++ [⟨p, .fail, s.dev.cyc.k + 2⟩] ∧ (s'.dev.cell p).retiring = none
              ∧ Answered c 0x0050 (stRes Sc.DONE) s s' ∧ Only [.twin, .fab, .host] t s s'))) ∧
    (∀ c arm seg p, s.dev.accepts c 0x0051 → s.dev.ownCell arm seg p = true →
      (s.dev.mode.conv ≠ .deEnergised → Runs (.cellRestore t c arm seg p) s fun s' => Answered c 0x0051 (stRes Sc.STATE) s s' ∧ Only [.host] t s s') ∧
      (s.dev.mode.conv = .deEnergised → Runs (.cellRestore t c arm seg p) s fun s' =>
        s'.dev.cell p = { ({} : CellRec) with cap := f32ofRat (s.dev.pn P.mod_cap_nom_uf) 1000000 }
          ∧ bitN s'.dev.par.retCells p = false ∧ bitN s'.dev.par.retPorts p = false
          ∧ (∀ i, i < 48 → i ≠ p → bitN s'.dev.par.retCells i = bitN s.dev.par.retCells i)
          ∧ (∀ j, j < 4 → s'.dev.par.dlyRef.find (4 * p + j) = none)
          ∧ ((s.dev.port p).retired = true → (s'.dev.port p).retired = false ∧ (s'.dev.port p).stage = .listen ∧ (s'.dev.port p).bucket = 0)
          ∧ ((s.dev.port p).retired = false → s'.dev.cp = s.dev.cp)
          ∧ Answered c 0x0051 (stRes Sc.DONE) s s' ∧ Only [.cyc, .par, .cp, .down, .host] t s s')) ∧
    (∀ p t0, p < 48 → s.dev.duplex = false → bitN s.dev.mode.causes 0 = false → (s.dev.port p).healthSince = some t0 →
      t0 + ticksOfS 10 ≤ s.now t → Runs (.healthWarnPersist t p) s fun s' => (s'.dev.cell p).health = true ∧ Only [.cyc] t s s') ∧
    (∀ p t0, p < 48 → (s.dev.cell p).fired = some t0 → t0 + ticksOfMs 50 ≤ s.now t → (s.dev.port p).head ≠ 5 → (s.dev.cell p).lost = false →
      Runs (.bypassUnconfirmed t p) s fun s' => s'.dev.cell p = { s.dev.cell p with lost := true } ∧ s'.dev.usableCell p = false
        ∧ Logged Ev.MOD_BYPASS_UNCONFIRMED (s.dev.cellEv p) s s' ∧ Only [.cyc, .log, .out] t s s')

/-! ## The measurement chains (chapter 4) -/

/-- R132, R133, R136, R138, R141, R152: a released block runs through its chains: one output for a preset of M_tot 25 with the
instant of the release, valid once N_inv outputs have passed, S set where the block is substituted; REF outputs are not valid
before control time is, and the holder forwards the followed streams. The model's choices in it: log entries 43, 69, 125,
126, 127 and 139. -/
def Obligations.BlocksAreReleasedToTheirChains : Prop :=
  ∀ (s : State) (t epoch : Nat), 1 ≤ epoch →
    let settled := fun (c : Chain) => c.change = [] ∧ c.swap = none ∧ c.since ≤ 25 * (epoch - 1) ∧ c.cfg.tIn = 40 ∧ mTot (preset c.cfg.preset) = 25
    (s.dev.mode.test ≠ .simcell → Runs (.cellBlockRelease t epoch) s fun s' =>
      s'.dev.meas.cellBlocks = s.dev.meas.cellBlocks + 1
      ∧ (∀ p b, p < 48 → (s.dev.chain p).on = true → (s.dev.meas.blocks.get {} p).find epoch = some b →
          (s'.dev.chain p).prev = b.1 ∧ ((s.dev.chain (48 + p)).on = true → (s'.dev.chain (48 + p)).prev = b.2))
      ∧ (∀ p, p < 48 → (s.dev.meas.blocks.get {} p).find epoch = none → (s'.dev.chain p).prev = (s.dev.chain p).prev)
      ∧ (∀ p, p < 48 → (s.dev.chain p).on = true → settled (s.dev.chain p) →
          (s'.dev.chain p).nOut = (s.dev.chain p).nOut + 1
          ∧ ∃ o, (s'.dev.chain p).outs.head? = some o ∧ o.rel = 2 * epoch + 8
            ∧ bitN o.tag 0 = ((s.dev.chain p).ninv == 0)
            ∧ ((s.dev.meas.blocks.get {} p).find epoch = none → (s.dev.chain p).cfg.delay = 0 → bitN o.tag 1 = true))
      ∧ (∀ n, n < 96 → (s.dev.chain n).on = false → (s.dev.chain n).change = [] →
          (s'.dev.chain n).outs = (s.dev.chain n).outs ∧ (s'.dev.chain n).on = false ∧ (s'.dev.chain n).nOut = (s.dev.chain n).nOut)
      ∧ (∀ n, 96 ≤ n → (s'.dev.chain n).outs = (s.dev.chain n).outs)
      ∧ Only [.meas, .cyc, .log, .out, .acq, .host] t s s') ∧
    (∀ rmd : List (BitVec 50), Runs (.refBlockRelease t epoch rmd) s fun s' =>
      let sent : Tab (BitVec 50) := ((List.range 8).filter fun m => bitN (s.dev.pn P.meas_ref_follow) m).map fun m => (m, rmd.getD m 0)
      s'.dev.meas.refBlocks = s.dev.meas.refBlocks + 1
      ∧ (s.dev.duplex = false → ∀ m, m < 8 → (s.dev.chain (96 + m)).on = true → (s.dev.chain (96 + m)).fwdIn = false →
          (s'.dev.chain (96 + m)).prev = rmd.getD m 0
          ∧ ((s.dev.chain (96 + m)).inNext = none → settled (s.dev.chain (96 + m)) →
              ∃ o, (s'.dev.chain (96 + m)).outs.head? = some o ∧ o.rel = 2 * epoch + 1
                ∧ bitN o.tag 0 = (s.dev.tim.ctValid && (s.dev.chain (96 + m)).ninv == 0)))
      ∧ (s.dev.duplex = true → s.dev.twin.role = .holder → s.dev.linkUp 2 = true → sent ≠ [] →
          (s'.dev.link 2).tx = ((s.at t).dev.link 2).tx ++ [⟨.refFwd epoch sent, 160 * s.now t, none⟩])
      ∧ (s.dev.duplex = true → s.dev.twin.role = .standby → ∀ m, m < 8 → bitN (s.dev.pn P.meas_ref_follow) m = true →
          (s.dev.meas.fwd.get [] m).find? (·.1 == epoch) = none → (s.dev.chain (96 + m)).own = false → 7 ≤ (s.dev.chain (96 + m)).missRun →
          (s'.dev.chain (96 + m)).own = true ∧ Raised Ev.MEAS_FOLLOW_LOST s s')
      ∧ (s.dev.twin.role ≠ .holder → s'.dev.fab = (s.at t).dev.fab)
      ∧ (∀ n, n < 96 → (s'.dev.chain n).outs = (s.dev.chain n).outs)
      ∧ Only [.meas, .log, .out, .fab, .acq, .host] t s s') ∧
    (∀ lane m bits, lane = 4 ∨ lane = 5 → m < 8 → Runs (.refFwdReceive t lane epoch m bits) s fun s' =>
      (s'.dev.meas.fwd.get [] m).head? = some (epoch, bits) ∧ s'.dev.meas.ch = s.dev.meas.ch ∧ Only [.fab, .meas] t s s')

/-- R135, R165, R288, R289: missing frames are asked of the twin, which answers with its own or with an absence notice; an answer
counts up to n + 3.9 µs; a port that nothing answers is reported; a stream faulty for meas.perm_ms or with 8 entries in 10 s
is permanently faulty: a CV stream fails its cell, a REF chain stops. The model's choices in it: log entries 10 and 102. -/
def Obligations.FramesAreRepairedAndStreamsFail : Prop :=
  ∀ (s : State) (t epoch : Nat),
    let missing := maskOf 48 fun p => (s.dev.chain p).on && !s.dev.simCell p && ((s.dev.meas.blocks.get {} p).own.find? (·.1 == epoch)).isNone
    (s.dev.duplex = true → missing ≠ 0 → s.dev.linkUp 2 = true → Runs (.repairRequestSend t epoch) s fun s' =>
      s'.dev.meas.requested.head? = some (epoch, missing)
        ∧ (s'.dev.link 2).tx = ((s.at t).dev.link 2).tx ++ [⟨.repairReq (epoch % 16384) missing, 160 * s.now t, none⟩]
        ∧ Only [.meas, .fab] t s s') ∧
    (s.dev.duplex = false ∨ missing = 0 → Runs (.repairRequestSend t epoch) s fun s' => Only [] t s s') ∧
    (∀ lane low mask, lane = 4 ∨ lane = 5 → low < 16384 →
      let n := (s.dev.at t).epochNear low
      let held := fun p => ((s.dev.meas.blocks.get {} p).own.find? (·.1 == n)).map fun x => (⟨p, x.2.1, x.2.2⟩ : PortBits)
      let bits := ((List.range 48).filter (bitN mask)).filterMap held
      let gone := maskOf 48 fun p => bitN mask p && (held p).isNone
      let per := if s.dev.pv P.link_double_rate = 1 then 4 else 9
      Runs (.repairReqReceive t lane low mask) s fun s' =>
        (s.dev.linkUp 2 = true → (s'.dev.link 2).tx.map (·.blk) = ((s.at t).dev.link 2).tx.map (·.blk)
          ++ (if bits = [] then [] else [.repairData low (.data (bits.take per))])
          ++ (if bits.length ≤ per then [] else [.repairData low (.data ((bits.drop per).take per))])
          ++ (if gone = 0 then [] else [.repairData low (.absent gone)]))
        ∧ Only [.fab] t s s') ∧
    (∀ lane low, lane = 4 ∨ lane = 5 → low < 16384 →
      let n := (s.dev.at t).epochNear low
      (∀ p d0 d1, p < 48 →
        ((s.dev.at t).ctBy (n * 1000 + 3900) = true → Runs (.repairDataReceive t lane low (.data [⟨p, d0, d1⟩])) s fun s' =>
          (s'.dev.meas.blocks.get {} p).repaired.head? = some (n, d0, d1)
            ∧ ((s.dev.meas.blocks.get {} p).own.find? (·.1 == n) = none → (s'.dev.meas.blocks.get {} p).find n = some (d0, d1))
            ∧ (∀ q, q ≠ p → s'.dev.meas.blocks.get {} q = s.dev.meas.blocks.get {} q)
            ∧ s'.dev.meas.ch = s.dev.meas.ch ∧ Only [.fab, .meas] t s s') ∧
        ((s.dev.at t).ctBy (n * 1000 + 3900) = false → Runs (.repairDataReceive t lane low (.data [⟨p, d0, d1⟩])) s fun s' => Only [.fab] t s s')) ∧
      (∀ mask, Runs (.repairDataReceive t lane low (.absent mask)) s fun s' =>
        (∀ p, p < 48 → bitN mask p = true → n ∈ (s'.dev.meas.blocks.get {} p).absent) ∧ s'.dev.meas.ch = s.dev.meas.ch ∧ Only [.fab, .meas] t s s')) ∧
    (∀ mask, s.dev.meas.requested.find? (·.1 == epoch) = some (epoch, mask) → Runs (.repairDeadline t epoch) s fun s' =>
      (∀ p, p < 48 → bitN mask p = true → (s.dev.meas.blocks.get {} p).find epoch = none → epoch ∉ (s.dev.meas.blocks.get {} p).absent →
        Raised Ev.MEAS_REPAIR_FAIL s s')
      ∧ ((∀ p, p < 48 → bitN mask p = true → (s.dev.meas.blocks.get {} p).find epoch ≠ none ∨ epoch ∈ (s.dev.meas.blocks.get {} p).absent) →
          s'.dev.log = s.dev.log)
      ∧ s'.dev.meas.requested.find? (·.1 == epoch) = none ∧ Only [.meas, .log, .out] t s s') ∧
    (∀ ch, ch < 104 → (s.dev.chain ch).on = true → (s.dev.chain ch).perm = false →
      (8 ≤ (s.dev.chain ch).entries.length ∨ ((s.dev.chain ch).faulty = true
        ∧ (s.dev.chain ch).faultAt + s.dev.pn P.meas_perm_ms * 1000000 ≤ ((s.dev.at t).ctNow * 16 / (2 ^ 32 * 10)).toNat)) →
      Runs (.streamPerm t ch) s fun s' =>
        (s'.dev.chain ch).perm = true ∧ Raised Ev.MEAS_STREAM_PERM s s'
          ∧ (96 ≤ ch → (s'.dev.chain ch).on = false ∧ (s'.dev.chain ch).entries = [])
          ∧ (ch < 96 → (s'.dev.chain ch).on = true)
          ∧ (ch < 48 → s.dev.duplex = false → s.dev.cellAt ch = true → bitN s.dev.par.retCells ch = false → (s.dev.cell ch).lost = false →
              (s.dev.cell ch).retiring = none →
              (s'.dev.cell ch).retiring = some (if (s.dev.armSt (s.dev.portArm ch)).own.isSome then s.dev.cyc.k + 1 else s.dev.cyc.k))
          ∧ Only [.meas, .log, .out, .cyc, .twin, .fab, .host] t s s')

/-- R143 to R149, R157: MEAS_COEF_LOAD fills a slot that no bank uses, MEAS_BANK_SWAP waits for its boundary and replaces a
request that waits, the swap fades over meas.fade_len outputs or at once with V cleared for N_inv outputs, and MEAS_SYNC is
held for its cycle. The model's choices in it: log entries 10, 43, 123, 124 and 127. -/
def Obligations.CoefficientBanksAreSwapped : Prop :=
  ∀ (s : State) (t : Nat) (c : CmdRef),
    (s.dev.accepts c 0x0060 → ∀ slot words,
      let n1 := fieldN (words.getD 0 0).toNat 0 9
      let n2 := fieldN (words.getD 0 0).toNat 9 9
      (16 ≤ slot → slot < 256 → words.length = 512 → n1 ≤ 255 → n2 ≤ 255 →
        ((∀ n, n < 104 → (s.dev.chain n).holds slot = false ∧ s.dev.activeSlot n ≠ slot) →
          Runs (.measCoefLoad t c slot words) s fun s' => s'.dev.meas = { s.dev.meas with coef := s.dev.meas.coef.set slot words }
            ∧ s'.dev.meas.coef.get [] slot = words ∧ Answered c 0x0060 (stRes Sc.DONE) s s' ∧ Only [.meas, .host] t s s') ∧
        ((∃ n, n < 104 ∧ ((s.dev.chain n).slot = slot ∨ ((s.dev.chain n).fade ≠ none ∧ (s.dev.chain n).inSlot = slot))) →
          Runs (.measCoefLoad t c slot words) s fun s' => Answered c 0x0060 (stRes Sc.BUSY) s s' ∧ Only [.host] t s s')) ∧
      (slot < 16 ∨ 256 ≤ slot ∨ 255 < n1 ∨ 255 < n2 →
        Runs (.measCoefLoad t c slot words) s fun s' => Answered c 0x0060 (stRes Sc.RANGE) s s' ∧ Only [.host] t s s')) ∧
    (s.dev.accepts c 0x0061 → ∀ ch slot start, ch < 104 → slot < 256 → slot < 4 ∨ 8 ≤ slot → start < 2 ^ 48 →
      let x := s.dev.chain ch
      let bad := s.dev.startOk ch start = false ∨ setRefused (preset x.cfg.preset) (s.dev.coefSet slot) = true
      (bad → Runs (.measBankSwap t c ch slot start) s fun s' => Answered c 0x0061 (stRes Sc.RANGE) s s' ∧ Only [.host] t s s') ∧
      (¬ bad → slot = x.slot → x.fade = none → x.swap = none → Runs (.measBankSwap t c ch slot start) s fun s' =>
        Answered c 0x0061 (stRes Sc.DONE) s s' ∧ Only [.host] t s s') ∧
      (¬ bad → slot ≠ x.slot ∨ x.fade ≠ none → x.swap = none → Runs (.measBankSwap t c ch slot start) s fun s' =>
        s'.dev.chain ch = { x with swap := some (slot, start, c) } ∧ (∀ n, n ≠ ch → s'.dev.chain n = s.dev.chain n) ∧ Only [.meas] t s s') ∧
      (∀ sl st r, ¬ bad → x.swap = some (sl, st, r) → r.xfer = .ok → Runs (.measBankSwap t c ch slot start) s fun s' =>
        s'.dev.chain ch = { x with swap := some (slot, start, c) } ∧ Answered r 0x0061 (stRes Sc.REPLACED) s s' ∧ Only [.meas, .host] t s s')) ∧
    (∀ ch slot start, ch < 104 → (s.dev.chain ch).swap = some (slot, start, c) →
      let x := s.dev.chain ch
      let p := preset x.cfg.preset
      let f := s.dev.pn P.meas_fade_len
      (∀ b, c.xfer = .ok → x.fade = none → x.on = true → x.boundary p = some b → start * s.dev.pn P.mod_t_mod_ns ≤ b * x.cfg.tIn →
        Runs (.bankSwapStart t ch) s fun s' =>
          let y := s'.dev.chain ch
          y.swap = none ∧ y.d2i = x.d2a ∧ y.d2a = x.d2a ∧ y.d1 = x.d1 ∧ y.integ = x.integ ∧ y.comb = x.comb ∧ y.outs = x.outs
          ∧ (f ≠ 0 → y.fade = some (0, f) ∧ y.bankB = x.bankB ∧ y.inSlot = slot ∧ y.slot = x.slot ∧ y.ninv = x.ninv)
          ∧ (f = 0 → y.fade = none ∧ y.bankB = (!x.bankB) ∧ y.slot = slot ∧ y.ninv = nInv p (s.dev.coefSet slot))
          ∧ (∀ n, n ≠ ch → s'.dev.chain n = s.dev.chain n)
          ∧ Answered c 0x0061 (stRes Sc.DONE) s s' ∧ Only [.meas, .host] t s s') ∧
      (x.fade ≠ none ∨ x.on = false ∨ x.boundary p = none ∨ (∃ b, x.boundary p = some b ∧ b * x.cfg.tIn < start * s.dev.pn P.mod_t_mod_ns) →
        Runs (.bankSwapStart t ch) s fun s' => Only [] t s s')) ∧
    (s.dev.accepts c 0x0062 → ∀ mask start, mask < 2 ^ 104 → start < 2 ^ 48 →
      ((∀ n, n < 104 → bitN mask n = true → s.dev.startOk n start = true) → Runs (.measSync t c mask start) s fun s' =>
        s'.dev.meas = { s.dev.meas with sync := s.dev.meas.sync ++ [(mask, start)] } ∧ Answered c 0x0062 (stRes Sc.DONE) s s' ∧ Only [.meas, .host] t s s') ∧
      ((∃ n, n < 104 ∧ bitN mask n = true ∧ s.dev.startOk n start = false) → Runs (.measSync t c mask start) s fun s' =>
        Answered c 0x0062 (stRes Sc.RANGE) s s' ∧ Only [.host] t s s'))


/-! ## The SAR converters (chapter 5) -/

/-- R170, R173 to R178, R182 to R187: a pass starts at slot 0; a conversion that has had its time is corrected with the
coefficients of its channel and gain, enters the direct result registers and the item, and its check bit fills the
converter's bucket; a calibration, or a change of the reference, ends the pass after it; a pass ends with its item at its
queue, or without it where the sequencer was stopped; a reference that has settled for 1 ms restarts the sequencers. The
model's choices in it: log entries 10, 51, 55 and 81. -/
def Obligations.SarPassesConvertAndPush : Prop :=
  ∀ (s : State) (t n : Nat), n < 4 →
    let q := s.dev.sarSeq n
    let now := s.now t
    let free := s.dev.pvi P.sar_seq_mode n = 0
    (s.dev.sarRuns n = true → q.run = false →
      (s.dev.pvi P.sar_seq_mode n ≠ 1 ∨ (s.dev.at t).pacedDue n = true → Runs (.sarPassStart t n) s fun s' =>
        s'.dev.sarSeq n = { q with run := true, slots := s.dev.passSlots n, pos := 0, staged := [], noPush := false, start := (s.dev.at t).tbc,
                                   len := s.dev.sarLen n, off := false,
                                   due := now + convTicks q.off (((s.dev.passSlots n).head?.map fun x => slotAcq x.2).getD 0) }
          ∧ (∀ j, j ≠ n → s'.dev.sarSeq j = s.dev.sarSeq j) ∧ Only [.sar] t s s') ∧
      (s.dev.pvi P.sar_seq_mode n = 1 → (s.dev.at t).pacedDue n = false → Runs (.sarPassStart t n) s fun s' => Only [] t s s')) ∧
    (∀ (x : Int) (ok : Bool), -32768 ≤ x → x ≤ 32767 →
      (now < q.due ∨ (s.dev.sar.settling = true ∧ q.stop = false) → Runs (.sarConversionEnd t n x ok) s fun s' => Only [] t s s') ∧
      (∀ (slot w : Nat), q.due ≤ now → s.dev.sar.settling = false → q.run = true → q.slots[q.pos]? = some (slot, w) →
        slotCh w < 16 → slotDr w = true → slotQ w = true → q.bucket + 64 < 4096 →
        let ch := slotCh w
        let c := s.dev.sarChan ch
        let g := s.dev.pni P.sar_gain ch
        let cal := bitN (s.dev.pni P.sar_cal_valid ch) g
        let y := ((16 * x - s.dev.pvi P.sar_cal_ofs (4 * ch + g)) * s.dev.pvi P.sar_cal_k (4 * ch + g) + 2 ^ 33) / 2 ^ 34
        Runs (.sarConversionEnd t n x ok) s fun s' =>
          let c' := s'.dev.sarChan ch
          let q' := s'.dev.sarSeq n
          c'.value = (if cal then clampInt (-32768) 32767 y else x)
          ∧ bitN c'.tag 0 = (ok && c.skip == 0) ∧ bitN c'.tag 2 = (!cal)
          ∧ bitN c'.tag 1 = (x == -32768 || x == 32767 || (cal && decide (y < -32768 ∨ 32767 < y)) || s.dev.sar.refFault)
          ∧ c'.count = c.count + 1 ∧ c'.seen = true ∧ c'.ovr = (c.ovr || c.loRead) ∧ c'.skip = c.skip - 1
          ∧ q'.convs = q.convs + 1 ∧ q'.bucket = (if ok then q.bucket - 1 else q.bucket + 64)
          ∧ (q.cal = none → q.stop = false → q'.run = true ∧ q'.pos = q.pos + 1 ∧ q'.staged.length = q.staged.length + 16
              ∧ ∀ z, q.slots[q.pos + 1]? = some z → q'.due = now + convTicks (slotPd w) (slotAcq z.2))
          ∧ (q.cal ≠ none ∨ q.stop = true → q.pos + 1 < q.slots.length → q'.run = false ∧ q'.staged = [])
          ∧ q'.stop = false ∧ q'.cal = q.cal
          ∧ (∀ i, i ≠ ch → s'.dev.sarChan i = s.dev.sarChan i) ∧ Only [.sar, .acq] t s s') ∧
      (∀ (slot w : Nat), q.due ≤ now → s.dev.sar.settling = false → q.run = true → q.slots[q.pos]? = some (slot, w) → slotCh w = 23 → q.bucket + 64 < 4096 →
        (s.dev.sar.refFault = false → s.dev.refOff x = true → Runs (.sarConversionEnd t n x ok) s fun s' =>
          s'.dev.sar.refFault = true ∧ Logged Ev.SAR_REF_FAULT 0 s s' ∧ Only [.sar, .acq, .log, .out] t s s') ∧
        (s.dev.sar.refFault = true → Runs (.sarConversionEnd t n x ok) s fun s' =>
          s'.dev.sar.refFault = (!s.dev.refBack x) ∧ Only [.sar, .acq] t s s')) ∧
      (q.due ≤ now → s.dev.sar.settling = false → q.bucket = 4032 → q.disabled = false → Runs (.sarConversionEnd t n x false) s fun s' =>
        (s'.dev.sarSeq n).disabled = true ∧ Raised Ev.SAR_ADC_DISABLED s s')) ∧
    (q.run = true → q.slots.length ≤ q.pos → (∀ z ∈ q.slots, z.1 < 24) →
      let again := fun (s' : State) => (free → s.dev.sarRuns n = true → (s'.dev.sarSeq n).run = true ∧ (s'.dev.sarSeq n).pos = 0)
        ∧ (¬ free → (s'.dev.sarSeq n).run = false)
      (q.noPush = false → q.staged ≠ [] → s.dev.pushFull (s.dev.pni P.sar_queue n) (s.dev.queue (s.dev.pni P.sar_queue n)) (granules (padItem q.staged)) false = false →
        (s.dev.queue (s.dev.pni P.sar_queue n)).partials.get 0 (68 + n) = 0 → Runs (.sarPassEnd t n) s fun s' =>
          (s'.dev.queue (s.dev.pni P.sar_queue n)).items = (s.dev.queue (s.dev.pni P.sar_queue n)).items
            ++ [⟨granules (padItem q.staged), 68 + n, (s.dev.queue (s.dev.pni P.sar_queue n)).seq, padItem q.staged⟩]
          ∧ (s'.dev.sarSeq n).pass = (q.pass + 1) % 2 ^ 24 ∧ (s'.dev.sarSeq n).staged = [] ∧ (s'.dev.sarSeq n).pushed = q.pushed + 1
          ∧ again s' ∧ Only [.sar, .que, .log, .out] t s s') ∧
      (q.noPush = true → Runs (.sarPassEnd t n) s fun s' =>
        (s'.dev.sarSeq n).pass = (q.pass + 1) % 2 ^ 24 ∧ (s'.dev.sarSeq n).staged = [] ∧ (s'.dev.sarSeq n).pushed = q.pushed
          ∧ again s' ∧ Only [.sar] t s s')) ∧
    (s.dev.sar.settling = true →
      let ready := s.dev.sar.settleAt + ticksOfMs 1 ≤ now ∧ ∀ j, j < 4 → (s.dev.sarSeq j).stop = false
      (ready → Runs (.sarRefSettled t) s fun s' =>
        s'.dev.sar.settling = false ∧ s'.dev.sar.ext = s.dev.sar.extNext ∧ s'.dev.sar.refMv = s.dev.pn P.sar_refin_mv
          ∧ (∀ c, c < 24 → s'.dev.sarChan c = { s.dev.sarChan c with skip := 2 })
          ∧ (free → s'.dev.sarRuns n = true → (s'.dev.sarSeq n).run = true ∧ (s'.dev.sarSeq n).pos = 0) ∧ Only [.sar] t s s') ∧
      (¬ ready → Runs (.sarRefSettled t) s fun s' => Only [] t s s'))

/-- R179 to R181: SAR_CAL suspends the named sequencer; after its conversions ZERO stores the mean as pending and FULL installs
offset and gain, or the command fails with the status of R181 and the coefficients stay. The model's choices in it: log
entries 10, 81 and 128. -/
def Obligations.SarCalibrationInstallsCoefficients : Prop :=
  ∀ (s : State) (t adc ch g : Nat), adc < 4 → ch < 16 → g < 4 →
    let q := s.dev.sarSeq adc
    (∀ (c : CmdRef) (full : Bool) (target : Int), s.dev.accepts c 0x0070 →
      (q.disabled = false → q.cal = none → (full = true → (s.dev.sarChan ch).zeros.find g ≠ none) → Runs (.sarCal t c adc ch (2 ^ g) full target) s fun s' =>
        let q' := s'.dev.sarSeq adc
        q'.cal = some { cmd := c, ch := ch, gain := g, full := full, target := target, n := s.dev.pn P.sar_cal_n }
          ∧ q'.run = q.run ∧ q'.pos = q.pos ∧ q'.staged = q.staged ∧ s'.dev.sarRuns adc = false
          ∧ (∀ j, j ≠ adc → s'.dev.sarSeq j = s.dev.sarSeq j) ∧ s'.dev.sar.ch = s.dev.sar.ch ∧ Only [.sar] t s s') ∧
      (q.disabled = true → Runs (.sarCal t c adc ch (2 ^ g) full target) s fun s' =>
        Answered c 0x0070 (stRes Sc.DISABLED) s s' ∧ Logged Ev.SAR_CAL_FAIL (ch + 256 * g) s s' ∧ Only [.host, .log, .out] t s s') ∧
      (q.disabled = false → q.cal = none → full = true → (s.dev.sarChan ch).zeros.find g = none → Runs (.sarCal t c adc ch (2 ^ g) full target) s fun s' =>
        Answered c 0x0070 (stRes Sc.NO_ZERO) s s' ∧ Logged Ev.SAR_CAL_FAIL (ch + 256 * g) s s' ∧ Only [.host, .log, .out] t s s')) ∧
    (∀ k : SarCal, q.cal = some k → q.calWait = [] → k.ch = ch → k.gain = g → k.cmd.xfer = .ok →
      let m := (16 * k.sum + k.n / 2) / (k.n : Int)
      let fails := fun (st : Nat) (s' : State) => s'.dev.par = s.dev.par ∧ Answered k.cmd 0x0070 (stRes st) s s'
        ∧ Logged Ev.SAR_CAL_FAIL (ch + 256 * g) s s' ∧ (s'.dev.sarSeq adc).cal = none ∧ Only [.sar, .host, .log, .out] t s s'
      (q.disabled = true → Runs (.sarCalComplete t adc) s (fails Sc.DISABLED)) ∧
      (q.disabled = false → k.got < k.n → Runs (.sarCalComplete t adc) s fun s' => Only [] t s s') ∧
      (q.disabled = false → k.got = k.n → 0 < k.n →
        (k.sat = true → Runs (.sarCalComplete t adc) s (fails Sc.CAL_SAT)) ∧
        (k.sat = false → k.full = false →
          (m.natAbs ≤ 16384 → Runs (.sarCalComplete t adc) s fun s' =>
            (s'.dev.sarChan ch).zeros.find g = some m ∧ s'.dev.par = s.dev.par ∧ Answered k.cmd 0x0070 (stRes Sc.DONE) s s'
              ∧ (s'.dev.sarSeq adc).cal = none ∧ Only [.sar, .host] t s s') ∧
          (16384 < m.natAbs → Runs (.sarCalComplete t adc) s (fails Sc.CAL_RANGE))) ∧
        (∀ z, k.sat = false → k.full = true → (s.dev.sarChan ch).zeros.find g = some z → z ≠ m →
          let kq := if z < m then (2 * (k.target * 2 ^ 34) + (m - z)) / (2 * (m - z)) else (2 * (-(k.target * 2 ^ 34)) + (z - m)) / (2 * (z - m))
          (966367642 ≤ kq → kq ≤ 1181116006 → Runs (.sarCalComplete t adc) s fun s' =>
            s'.dev.pvi P.sar_cal_ofs (4 * ch + g) = z ∧ s'.dev.pvi P.sar_cal_k (4 * ch + g) = kq ∧ bitN (s'.dev.pni P.sar_cal_valid ch) g = true
              ∧ s'.dev.par.pending = s.dev.par.pending ∧ s'.dev.par.copy0 = s.dev.par.copy0 ∧ Answered k.cmd 0x0070 (stRes Sc.DONE) s s'
              ∧ Logged Ev.SAR_CAL_DONE (ch + 256 * g) s s' ∧ Only [.sar, .par, .host, .log, .out] t s s') ∧
          (kq < 966367642 ∨ 1181116006 < kq → Runs (.sarCalComplete t adc) s (fails Sc.CAL_RANGE)))))


/-! ## The control engine (chapter 6) -/

/-- R190, R195, R202, R211, R213, R217, R220, R221, R224: the snapshot of a control cycle holds its inputs and what they ask for;
the law tasks run in their order and end in six records for the next control cycle. The model's choices in it: log entries
10, 50, 52, 91 and 129. -/
def Obligations.LawsRunFromTheSnapshot : Prop :=
  ∀ (s : State) (t : Nat), s.dev.leadWorks = true →
    let k := s.dev.cyc.k
    let n := max 1 (s.dev.pn P.ctl_n_ctl)
    let lost := fun (a : Nat) => match s.dev.ctl.meas.find a with
      | some m => !(m.cycle + 1 == k && m.ok)
      | none => true
    (k % n ≠ 0 → Runs (.lawSnapshot t) s fun s' => Only [] t s s') ∧
    (k % n = 0 → bitN s.dev.mode.fnEnable 4 = false → s.dev.mode.reqs = [] → Runs (.lawSnapshot t) s fun s' =>
      s'.dev.ctl.lawRun = s.dev.ctl.lawRun ∧ Only [.ctl, .mode, .log, .out] t s s') ∧
    (k % n = 0 → bitN s.dev.mode.fnEnable 4 = true → s.dev.mode.reqs = [] → Runs (.lawSnapshot t) s fun s' => ∃ r,
      s'.dev.ctl.lawRun = some r ∧ r.k = k ∧ r.done = 0 ∧ r.recs = [] ∧ r.outer = ((k / n) % max 1 (s.dev.pn P.ctl_n_out) == 0)
      ∧ (∀ v l, s.dev.refInput k (s.dev.pn P.ctl_src_udc) = (some v, l) → r.inp.udc = v)
      ∧ (∀ a m, a < 6 → s.dev.ctl.meas.find a = some m → m.cycle + 1 = k →
          r.inp.iArm.getD a f0 = f32ofRat m.iNext 1000 ∧ r.inp.vArm.getD a f0 = f32ofRat m.vSum 100)
      ∧ (∀ a, a < 6 → bitN s'.dev.ctl.lost (4 + a) = lost a)
      ∧ (∀ a m, a < 6 → s.dev.ctl.meas.find a = some m → f32lt (s.dev.pf P.ctl_i_arm_trip_a) (f32abs (f32ofRat m.iNext 1000)) = true →
          bitN s'.dev.mode.causes 4 = true ∧ (s.dev.mode.conv = .deblocked → s'.dev.ctl.block = true)
            ∧ (bitN s.dev.mode.causes 4 = false → Raised Ev.CTL_ARM_OVERCURRENT s s'))
      ∧ (s.dev.ctl.holdN = none → ∀ a, a < 6 → lost a = true →
          (s.dev.pv P.ctl_fb_react = 1 → bitN s.dev.ctl.lost (4 + a) = false → Raised Ev.CTL_FB_BLOCK s s' ∧ bitN s'.dev.mode.causes 2 = true)
            ∧ (s.dev.pv P.ctl_fb_react = 0 → s'.dev.ctl.holdN.isSome = true ∧ r.hold = true))
      ∧ (s.dev.ctl.handover = true → r.preset = true ∧ Raised Ev.CTL_HANDOVER s s')
      ∧ Only [.ctl, .cyc, .mode, .log, .out, .openIx] t s s') ∧
    (∀ (i : Nat) (r : LawRun), i < 5 → s.dev.ctl.lawRun = some r → r.done = i → Runs (.lawTask t i) s fun s' => ∃ r',
      s'.dev.ctl.lawRun = some r' ∧ r'.done = i + 1 ∧ r'.k = r.k ∧ r'.inp = r.inp
      ∧ (∀ x, s.dev.reedOf (.law i) = some x → (s'.dev.reed x).tasks = (s.dev.reed x).tasks + 1)
      ∧ (i = 0 → r'.laws.udcf = f32add r.laws.udcf (f32mul (f32sub r.inp.udc r.laws.udcf)
          (f32min f1 (f32mul (f32mul f2pi (s.dev.pf P.ctl_udc_lp_hz)) s.dev.tCtl))))
      ∧ (i = 1 → ∀ c, c < 6 → s.dev.ctl.host = false → s.dev.mode.conv = .deblocked → s.dev.profUsed c = true → (r.laws.prof.get {} c).active = false →
          r'.laws.prof.get {} c = { r.laws.prof.get {} c with active := true, x := s.dev.profMeas r.laws c, v := f0, a := f0, soft := false, devRun := 0 })
      ∧ (i = 1 → s.dev.isDrive = true → r.laws.obsValid = false → r'.laws.dq = ⟨s.dev.pf P.ctl_start_i_a, f0⟩)
      ∧ (i = 2 → s.dev.pv P.ctl_i_prio = 1 → r'.laws.ref.y = f32clamp r.laws.dq.y (f32neg (s.dev.pf P.ctl_i_max_a)) (s.dev.pf P.ctl_i_max_a)
          ∧ (f32eq r'.laws.ref.y r.laws.dq.y = false → r'.laws.holdQ = true))
      ∧ (i = 3 → r.hold = true → r'.laws.wx = r.laws.wx)
      ∧ (i = 4 → r'.recs.length = 6 ∧ ∀ a, a < 6 → ∃ x, r'.recs[a]? = some x ∧ x.c0 = r.k + s.dev.pn P.ctl_n_ctl ∧ x.nc = s.dev.pn P.ctl_n_ctl
          ∧ x.arm = a ∧ x.cmd = if s.dev.mode.conv = .deblocked ∧ s.dev.ctl.block = false then 0 else 2)
      ∧ Only [.ctl, .cyc, .mode, .log, .out, .openIx] t s s')

/-- R191, R192, R215, R216: at its deadline a control cycle whose laws are complete sends its six records; a first missed one
raises EV_CTL_OVERRUN and sends continuations, a second in a row sends none and is a segment fault; with control source HOST
the host's records leave, a first missing one as a continuation with EV_CTL_HOST_REF_GAP, a further one not. The model's
choices in it: log entries 10, 48 and 58. -/
def Obligations.RecordsLeaveAtTheDeadline : Prop :=
  ∀ (s : State) (t : Nat), s.dev.leadWorks = true → s.dev.decided = true →
    let n := max 1 (s.dev.pn P.ctl_n_ctl)
    let kj := s.dev.cyc.k / n * n
    let c0 := kj + n
    let blk := fun (x : RefRec) => if s.dev.ctl.block then { x with cmd := 2 } else x
    let c := s.dev.ctl
    (∀ r, c.host = false → c.lawRun = some r → r.k = kj → r.done = 5 → r.recs.map (·.arm) = List.range 6 →
      Runs (.lawSendDeadline t) s fun s' =>
        s'.dev.ctl.laws = r.laws ∧ s'.dev.ctl.misses = 0 ∧ s'.dev.ctl.lawRun = none ∧ s'.dev.ctl.prevRec = c.lastRec
        ∧ (∀ x ∈ r.recs, s'.dev.ctl.lastRec.find x.arm = some (blk x))
        ∧ (∀ q ∈ 2 :: s.dev.refPorts none, s.dev.linkUp q = true → ∃ b, Waits q (.refRec b) s' ∧ b.c0 = c0 ∧ b.nc = n
            ∧ ∀ x ∈ r.recs, bitN b.present x.arm = true ∧ b.vals.getD x.arm (0, 0) = (x.u0, x.du) ∧ b.cmds.getD x.arm 0 = (blk x).cmd)
        ∧ Only [.ctl, .cyc, .fab, .acq] t s s') ∧
    (bitN s.dev.mode.fnEnable 4 = true → c.lawRun = none → (∀ a x, c.lastRec.find a = some x → x.arm = a) →
      (c.host = false → c.misses = 0 → Runs (.lawSendDeadline t) s fun s' =>
        s'.dev.ctl.misses = 1 ∧ s'.dev.ctl.laws = c.laws ∧ s'.dev.cyc.ovrLaw = s.dev.cyc.ovrLaw + 1 ∧ Logged Ev.CTL_OVERRUN 0 s s'
        ∧ s'.dev.cyc.segFault = s.dev.cyc.segFault
        ∧ (∀ a x, a < 6 → c.lastRec.find a = some x → s'.dev.ctl.lastRec.find a = some (blk { x with
            c0 := x.c0 + n, u0 := clampInt (-2147483648) 2147483647 (x.u0 + (n : Int) * x.du / 256) }))
        ∧ (∀ q ∈ 2 :: s.dev.refPorts none, ∀ a x, a < 6 → s.dev.linkUp q = true → c.lastRec.find a = some x → ∃ b, Waits q (.refRec b) s' ∧ b.c0 = c0
            ∧ b.vals.getD a (0, 0) = (clampInt (-2147483648) 2147483647 (x.u0 + (n : Int) * x.du / 256), x.du))
        ∧ Only [.ctl, .cyc, .log, .out, .fab] t s s') ∧
      (c.host = false → c.misses = 1 → Runs (.lawSendDeadline t) s fun s' =>
        s'.dev.ctl.misses = 2 ∧ s'.dev.ctl.lastRec = c.lastRec ∧ Raised Ev.CTL_OVERRUN s s' ∧ s'.dev.cyc.segFault = true
        ∧ Only [.ctl, .cyc, .log, .out, .mode] t s s') ∧
      (c.host = true → c.block = false → c.hostNew = [] → 0 ≤ s.dev.hostStep → s.dev.convAt c0 = .deblocked →
        (∀ a, ∀ x ∈ c.hostQ.get [] a, x.arm = a) → Runs (.lawSendDeadline t) s fun s' =>
          (∀ a x, a < 6 → (c.hostQ.get [] a).find? (fun x => x.c0 == c0) = some x → c.hostDiff.get 0 a = 0 → -2147483648 ≤ x.u0 → x.u0 ≤ 2147483647 →
            s'.dev.ctl.lastRec.find a = some x ∧ bitN s'.dev.ctl.hostLost a = false ∧ s'.dev.ctl.hostRun.get 0 a = 0)
          ∧ (∀ a x, a < 6 → (c.hostQ.get [] a).find? (fun x => x.c0 == c0) = none → c.lastRec.find a = some x →
            Raised Ev.CTL_HOST_REF_GAP s s' ∧ bitN s'.dev.ctl.hostLost a = true ∧ s'.dev.ctl.hostRun.get 0 a = c.hostRun.get 0 a + 1
            ∧ s'.dev.ctl.lastRec.find a = some (if c.hostRun.get 0 a = 0 then
                { x with c0 := x.c0 + n, u0 := clampInt (-2147483648) 2147483647 (x.u0 + (n : Int) * x.du / 256) } else x))
          ∧ Only [.ctl, .cyc, .log, .out, .fab, .mode] t s s'))

/-- R221, R222, R226, R227: a hold that reaches ctl.fb_hold_us and, with ctl.fe_react = BLOCK, a lasting following error request
a block; an identification ends with its result, or with EV_CTL_IDENT_FAIL and both parameter sets as they were. The model's
choices in it: log entries 10, 60 and 89. -/
def Obligations.SupervisorsBlockAndIdentificationEnds : Prop :=
  ∀ (s : State) (t : Nat),
    (∀ n, s.dev.ctl.holdN = some n → s.dev.holdLimit ≤ n + 1 → bitN s.dev.mode.causes 2 = false → Runs (.feedbackHoldExpiry t) s fun s' =>
      Logged Ev.CTL_FB_BLOCK s.dev.ctl.lost s s' ∧ bitN s'.dev.mode.causes 2 = true ∧ Only [.mode, .log, .out] t s s') ∧
    (∀ ch t0, ch < 7 → s.dev.ctl.fe.find ch = some t0 → ticksOfMs (s.dev.pni P.ctl_fe_t_ms ch) ≤ s.now t - t0 → bitN s.dev.ctl.feUp ch = false →
      Runs (.followingError t ch) s fun s' =>
        Logged Ev.CTL_FOLLOWING ch s s' ∧ bitN s'.dev.ctl.feUp ch = true ∧ (s.dev.pv P.ctl_fe_react = 1 → bitN s'.dev.mode.causes 3 = true)
          ∧ (s.dev.pv P.ctl_fe_react ≠ 1 → s'.dev.mode = s.dev.mode) ∧ Only [.ctl, .mode, .log, .out] t s s') ∧
    (∀ r, s.dev.ctl.ident = some r → r.ended = true → (∀ c, r.cmd = some c → c.xfer = .ok) →
      let (L, wide) := identResult r
      (r.bad = true ∨ wide = true → Runs (.identEnd t) s fun s' =>
        s'.dev.ctl.ident = none ∧ s'.dev.par = s.dev.par ∧ Logged Ev.CTL_IDENT_FAIL 0 s s'
          ∧ (∀ c, r.cmd = some c → Answered c 0x0083 ⟨Sc.DONE, bytesLE 4 0, []⟩ s s') ∧ Only [.ctl, .host, .log, .out] t s s') ∧
      (r.bad = false → wide = false →
        let (vals, reduced) := s.dev.identGains L
        (r.apply = false → Runs (.identEnd t) s fun s' =>
          s'.dev.ctl.ident = none ∧ s'.dev.par = { s.dev.par with pending := vals.foldl (fun t x => t.set x.1 x.2) s.dev.par.pending }
            ∧ Raised Ev.CTL_IDENT_DONE s s' ∧ (reduced = true → Raised Ev.CTL_GAIN_REDUCED s s')
            ∧ (∀ c, r.cmd = some c → Answered c 0x0083 ⟨Sc.DONE, bytesLE 4 L.toNat, []⟩ s s') ∧ Only [.ctl, .par, .host, .log, .out] t s s') ∧
        (r.apply = true → s.dev.alone = true → ∀ c, r.cmd = some c → Runs (.identEnd t) s fun s' =>
          s'.dev.ctl.ident = none ∧ s'.dev.par = s.dev.par ∧ s'.dev.ctl.waits = s.dev.ctl.waits ++ [⟨.params vals true, s.dev.secondBoundary, true, some c⟩]
            ∧ Raised Ev.CTL_IDENT_DONE s s' ∧ Only [.ctl, .log, .out] t s s')))

/-- R213, R215, R219, R225, R229: the control commands wait for the second control-cycle boundary, alone or with the twin's
acknowledgement, and are dropped with TWIN_TIMEOUT without it; the checks of each refuse it by their status; records of
CTL_REF_PUSH enter their arm's queue in order. The model's choices in it: log entries 10, 58, 59, 89 and 136. -/
def Obligations.ControlChangesAreAgreed : Prop :=
  ∀ (s : State) (t : Nat) (c : CmdRef),
    let a := s.dev.secondBoundary
    let agreed := fun (b : CtlBody) (s' : State) =>
      s'.dev.ctl = { s.dev.ctl with waits := s.dev.ctl.waits ++ [⟨b, a, s.dev.alone, some c⟩] }
        ∧ (s.dev.alone = true → Only [.ctl] t s s') ∧ (s.dev.alone = false → (s.dev.linkUp 2 = true → s.dev.twinAddr ≠ none → Made 1 s.dev.twinAddr (.twinApply (.change b a)) s') ∧ Only [.ctl, .fab, .out] t s s')
    let replies := fun (op st : Nat) (s' : State) => Answered c op (stRes st) s s' ∧ Only [.host] t s s'
    (s.dev.convLead = true →
      (∀ host, s.dev.accepts c 0x0080 → (host = true ∨ bitN s.dev.mode.fnEnable 4 = true → Runs (.ctlSource t c host) s (agreed (.source host))) ∧
        (host = false → bitN s.dev.mode.fnEnable 4 = false → Runs (.ctlSource t c host) s (replies 0x0080 Sc.DISABLED))) ∧
      (∀ ch x, s.dev.accepts c 0x0081 →
        let ok := ch < 6 ∧ f32le (s.dev.pfi P.ctl_prof_min ch) x = true ∧ f32le x (s.dev.pfi P.ctl_prof_max ch) = true
        (ok → s.dev.ctl.ident = none → Runs (.ctlSetpoint t c ch x) s (agreed (.setpoint ch x))) ∧
        (ok → s.dev.ctl.ident ≠ none → Runs (.ctlSetpoint t c ch x) s (replies 0x0081 Sc.BUSY)) ∧
        (¬ok → Runs (.ctlSetpoint t c ch x) s (replies 0x0081 Sc.RANGE))) ∧
      (∀ apply, s.dev.accepts c 0x0083 →
        (s.dev.identAllowed = true → s.dev.ctl.ident = none → Runs (.ctlIdent t c apply) s (agreed (.ident apply))) ∧
        (s.dev.identAllowed = false → Runs (.ctlIdent t c apply) s (replies 0x0083 Sc.STATE))) ∧
      (∀ r : RefRec, s.dev.accepts c 0x0082 →
        let n := max 1 (s.dev.pn P.ctl_n_ctl)
        let q := s.dev.ctl.hostQ.get [] r.arm
        let fits := r.arm < 6 ∧ r.nc = n ∧ r.c0 % n = 0
        let inTime := s.dev.cyc.k < r.c0 ∧ s.now t < s.dev.cyc.tk + (r.c0 - s.dev.cyc.k) * s.dev.tModTicks - ticksOfNs 2500
        let held := q.any fun x => x.c0 == r.c0
        let refused := fun (st : Nat) (s' : State) => Answered c 0x0082 ⟨st, wordsBytes [0], []⟩ s s' ∧ Only [.host] t s s'
        (fits → inTime → q.length < 64 ∨ held = true → Runs (.ctlRefPush t c [r]) s fun s' =>
          s'.dev.ctl.hostQ.get [] r.arm = (if held then q.map (fun x => if x.c0 = r.c0 then r else x) else q ++ [r])
            ∧ (∀ i, i ≠ r.arm → s'.dev.ctl.hostQ.get [] i = s.dev.ctl.hostQ.get [] i)
            ∧ Answered c 0x0082 ⟨Sc.DONE, wordsBytes [1], []⟩ s s' ∧ Only [.ctl, .host] t s s') ∧
        (¬fits → Runs (.ctlRefPush t c [r]) s (refused Sc.RANGE)) ∧ (fits → ¬inTime → Runs (.ctlRefPush t c [r]) s (refused Sc.LATE)) ∧
        (fits → inTime → 64 ≤ q.length → held = false → Runs (.ctlRefPush t c [r]) s (refused Sc.FULL)) ∧
        (¬fits → ∀ x y, (s.dev.at t).pushRef x = (y, none) → Runs (.ctlRefPush t c [x, r]) s fun s' =>
          s'.dev.ctl = y.ctl ∧ Answered c 0x0082 ⟨Sc.RANGE, wordsBytes [1], []⟩ s s'))) ∧
    (∀ b n, s.dev.cyc.k < n → (∀ v, b ≠ .conv v) → (∀ m, b ≠ .test m) →
      Runs (.twinApplyReceive t (.change b n)) s (fun s' =>
        s'.dev.ctl = { s.dev.ctl with waits := s.dev.ctl.waits ++ [⟨b, n, true, none⟩] } ∧ (s.dev.linkUp 2 = true → s.dev.twinAddr ≠ none → Made 1 s.dev.twinAddr (.twinApply (.ack b n)) s')
          ∧ Only [.ctl, .fab, .out] t s s') ∧
      Runs (.twinApplyReceive t (.ack b n)) s fun s' =>
        s'.dev.ctl.waits = s.dev.ctl.waits.map (fun w => if w.body = b ∧ w.apply = n then { w with acked := true } else w) ∧ Only [.ctl] t s s') ∧
    (∀ w, s.dev.ctl.waits.filter (fun w => !w.acked && decide (w.apply ≤ s.dev.cyc.k)) = [w] → w.cmd = some c → c.xfer = .ok →
      Runs (.twinApplyTimeout t) s fun s' =>
        s'.dev.ctl.waits = s.dev.ctl.waits.filter (fun w => w.acked || decide (s.dev.cyc.k < w.apply))
          ∧ Answered c (ctlOpcode w.body) (stRes Sc.TWIN_TIMEOUT) s s' ∧ Only [.ctl, .host, .mode] t s s')

/-! ## The fabric (chapter 8) -/

/-- R265, R272, R281, R293, R298: a lane passes the stages of Table 08-4 in order, a wrong identity keeps it in HELLO, a missed
timeout restarts it at DETECT; 16 delay results within 0.5 ns bring it to UP, where its link changes width and the change is
flooded; a port without a lane in UP after 3 ms is a link that is down. The model's choices in it: log entries 10, 42, 106,
107, 108, 133 and 139. -/
def Obligations.LanesComeUpStageByStage : Prop :=
  ∀ (s : State) (t n : Nat), n < 8 →
    let d := (s.at t).dev
    let l := d.lane n
    let p := n / 2
    let goes := fun (x : Lane) (s' : State) => s'.dev.lane n = x ∧ (∀ m, m ≠ n → s'.dev.lane m = d.lane m) ∧ s'.dev.fab.links = d.fab.links ∧ Only [.fab] t s s'
    let restarts := goes { l with stage := .detect, fast := false, idle := false, began := s.now t, accepted := false, results := [], bringups := l.bringups + 1 }
    let up := fun (s' : State) =>
      (s'.dev.lane n).stage = .up ∧ (s'.dev.lane n).fast = false ∧ (s'.dev.lane n).off = false ∧ Raised Ev.FAB_LANE_UP s s'
        ∧ ((d.lane (otherLane n)).stage ≠ .up → (d.link p).width = 0 → (s'.dev.link p).width = 1
            ∧ ∀ q, q < 2 → s'.dev.linkUp q = true → Waits q (.linkState ⟨s.dev.boot.segId, p, 1, s.dev.cyc.k + 4⟩) s')
        ∧ Only [.fab, .log, .out] t s s'
    (l.stage = .detect → d.portEnabled p = true →
      Runs (.laneSignalDetect t n) s (goes { l with idle := false, partnerIdle := false, stage := .cdr, began := s.now t })) ∧
    (∀ inv,
      (l.stage = .cdr → Runs (.laneStageExit t n inv) s (goes { l with inverted := inv, stage := .equalise, began := s.now t })) ∧
      (l.stage = .equalise → Runs (.laneStageExit t n inv) s (goes { l with stage := .block, began := s.now t })) ∧
      (l.stage = .block → l.fast = false → Runs (.laneStageExit t n inv) s fun s' =>
        (s'.dev.lane n).stage = .hello ∧ (s'.dev.lane n).began = s.now t ∧ Sent n (.hello (d.ownIdent n)) s'
          ∧ (∀ m, m ≠ n → s'.dev.lane m = d.lane m) ∧ Only [.fab, .out, .openIx] t s s') ∧
      (l.stage = .block → l.fast = true → l.accepted = true → Runs (.laneStageExit t n inv) s up) ∧
      (l.stage = .hello → l.accepted = false → Runs (.laneStageExit t n inv) s (goes l)) ∧
      (l.stage = .hello → l.accepted = true → Runs (.laneStageExit t n inv) s (goes { l with results := [], stage := .delay, began := s.now t })) ∧
      (∀ r hi lo : Nat, l.stage = .delay → l.fast = false → 16 ≤ l.results.length → (∀ x ∈ l.results.drop (l.results.length - 16), lo ≤ x ∧ x ≤ hi) → hi ≤ lo + 500 →
        r = (if p = 3 then 275000 else 35000) → Runs (.laneStageExit t n inv) s fun s' =>
          up s' ∧ (s'.dev.lane n).long = decide (r < l.delay) ∧ (r < l.delay → Raised Ev.FAB_LINK_LONG s s'))) ∧
    (∀ x : Ident, l.stage = .hello →
      (d.identityOk p x = true → Runs (.helloReceive t n x) s fun s' =>
        (s'.dev.lane n).stage = .hello ∧ (s'.dev.lane n).partner = some x ∧ (s'.dev.lane n).accepted = true ∧ Only [.fab] t s s') ∧
      (d.identityOk p x = false → Runs (.helloReceive t n x) s fun s' =>
        (s'.dev.lane n).stage = .hello ∧ (s'.dev.lane n).accepted = false ∧ Logged Ev.FAB_MISWIRE n s s' ∧ Only [.fab, .log, .out] t s s')) ∧
    (∀ us, l.stage.timeout = some us → l.fast = false → l.began + ticksOfUs us ≤ s.now t → Runs (.laneStageTimeout t n) s restarts) ∧
    (l.fast = true → l.stage ≠ .up → l.began + ticksOfUs 5 ≤ s.now t → Runs (.fastRetrainTimeout t n) s restarts) ∧
    (∀ t0, d.portEnabled p = true → (d.link p).width = 0 → (d.link p).reported = false → (d.link p).started = some t0 →
      t0 + ticksOfMs 3 ≤ s.now t → Runs (.linkBringupTimeout t p) s fun s' =>
        Logged Ev.FAB_LINK_DOWN p s s' ∧ (s'.dev.link p).reported = true
          ∧ (∀ q, q < 2 → s.dev.linkUp q = true → Waits q (.linkState ⟨s.dev.boot.segId, p, 0, s.dev.cyc.k + 4⟩) s') ∧ Only [.fab, .log, .out] t s s')

/-- R273, R275, R290, R291, R293: a lane that loses lock, is told to, or sees 8 bad blocks in a row retrains, its port runs at
half width or its link is down; a full bucket or 8 failed retrains in 10 s retire it until FAB_LANE_RESTORE. The model's
choices in it: log entries 10, 74, 99, 100, 108 and 139. -/
def Obligations.LanesRetrainRetireAndIdle : Prop :=
  ∀ (s : State) (t n : Nat), n < 8 →
    let d := (s.at t).dev
    let l := d.lane n
    let o := otherLane n
    let p := n / 2
    let lost := fun (s' : State) =>
      (s'.dev.lane n).stage = .block ∧ (s'.dev.lane n).fast = true ∧ (s'.dev.lane n).retrains = l.retrains + 1 ∧ (s'.dev.lane n).lossAt = some (s.now t)
      ∧ Out.training n ∈ s'.dev.out ∧ Raised Ev.FAB_LANE_DOWN s s'
      ∧ ((d.lane o).stage = .up → Sent o (.laneCmd .down) s'
          ∧ ((d.lane o).off = false → (d.link p).width = 2 → (s'.dev.link p).width = 1 ∧ Raised Ev.FAB_HALF_WIDTH s s'))
      ∧ ((d.lane o).stage ≠ .up → 0 < (d.link p).width → (s'.dev.link p).width = 0 ∧ Raised Ev.FAB_LINK_DOWN s s')
      ∧ Only [.fab, .log, .out, .openIx, .host] t s s'
    let retired := fun (s' : State) =>
      (s'.dev.lane n).stage = .retired ∧ (s'.dev.lane n).idle = true ∧ bitN s'.dev.par.retLanes n = true ∧ Raised Ev.FAB_LANE_RETIRED s s'
      ∧ (∀ m, m ≠ n → m < 8 → bitN s'.dev.par.retLanes m = bitN s.dev.par.retLanes m) ∧ Only [.fab, .par, .log, .out, .openIx, .host] t s s'
    (l.stage = .up → l.partnerIdle = false → Runs (.laneLockLoss t n) s fun s' => lost s' ∧ Sent n (.laneCmd .retrain) s') ∧
    (l.stage = .up → Runs (.laneCmdRetrain t n) s lost) ∧
    (∀ kind,
      let b := min 65535 (l.bucket + 64)
      (b < s.dev.pn P.fab_err_limit → l.badRun + 1 < 8 → Runs (.fabricBadBlock t n kind) s fun s' =>
        (s'.dev.lane n).bucket = b ∧ (s'.dev.lane n).badRun = l.badRun + 1 ∧ (s'.dev.lane n).stage = l.stage
          ∧ (s'.dev.lane n).crcErr = (if kind = .crc then l.crcErr + 1 else l.crcErr) ∧ Only [.fab] t s s') ∧
      (b < s.dev.pn P.fab_err_limit → 8 ≤ l.badRun + 1 → l.stage = .up → Runs (.fabricBadBlock t n kind) s fun s' =>
        lost s' ∧ Sent n (.laneCmd .retrain) s') ∧
      (s.dev.pn P.fab_err_limit ≤ b → l.stage ≠ .retired → Runs (.fabricBadBlock t n kind) s retired)) ∧
    (∀ t0, l.lossAt = some t0 → l.stage ≠ .up → l.stage ≠ .retired → t0 + ticksOfMs 3 ≤ s.now t →
      let recent := l.failTimes.filter fun x => decide (s.now t < x + ticksOfS 10)
      (recent.length < 7 → Runs (.retrainFailTimeout t n) s fun s' =>
        (s'.dev.lane n).failTotal = l.failTotal + 1 ∧ (s'.dev.lane n).failTimes = s.now t :: recent ∧ (s'.dev.lane n).stage = l.stage
          ∧ Logged Ev.FAB_RETRAIN_FAIL n s s' ∧ Only [.fab, .log, .out] t s s') ∧
      (7 ≤ recent.length → Runs (.retrainFailTimeout t n) s fun s' => Raised Ev.FAB_RETRAIN_FAIL s s' ∧ retired s')) ∧
    (∀ c, s.dev.accepts c 0x00A0 →
      (s.dev.mode.conv = .deEnergised → l.stage = .retired → Runs (.fabLaneRestore t c n) s fun s' =>
        (s'.dev.lane n).stage = .detect ∧ (s'.dev.lane n).bucket = 0 ∧ bitN s'.dev.par.retLanes n = false
          ∧ Answered c 0x00A0 (stRes Sc.DONE) s s' ∧ Only [.fab, .par, .host] t s s') ∧
      (s.dev.mode.conv ≠ .deEnergised ∨ l.stage ≠ .retired → Runs (.fabLaneRestore t c n) s fun s' =>
        Answered c 0x00A0 (stRes Sc.STATE) s s' ∧ Only [.host] t s s')) ∧
    Runs (.laneCmdDown t n) s (fun s' => (s'.dev.lane o).off = true
      ∧ (l.stage = .up → l.off = false → (d.link p).width = 2 → (s'.dev.link p).width = 1 ∧ Raised Ev.FAB_HALF_WIDTH s s')
      ∧ Only [.fab, .log, .out, .host] t s s') ∧
    Runs (.laneCmdIdleReq t n) s (fun s' => (s'.dev.lane n).partnerIdle = true ∧ (s'.dev.lane n).stage = l.stage
      ∧ (∀ m, m ≠ n → s'.dev.lane m = d.lane m) ∧ Only [.fab] t s s') ∧
    (s.dev.mode.conv = .deEnergised → l.stage = .up → l.idle = false → l.busyAt + ticksOfUs (s.dev.pn P.fab_idle_us) ≤ s.now t →
      Runs (.laneIdleTimer t n) s fun s' => (s'.dev.lane n).idle = true ∧ (s'.dev.lane n).stage = .up ∧ Sent n (.laneCmd .idleReq) s'
        ∧ (∀ m, m ≠ n → s'.dev.lane m = d.lane m) ∧ Only [.fab, .out, .openIx] t s s')

/-- R269, R270, R274: a DELAY block names the instant at which its marker leaves and the partner's last one; the one-way delay is
half the round trip of two DELAY blocks; an elastic block brings the buffer back to 32 bits by whole pad words; a SKIP block
is due after 4,096 other blocks; the offset of a second is warned about above 200 ppm and retrained on above 300 ppm, as is a
slip. The model's choices in it: log entries 10, 77 and 108. -/
def Obligations.LaneTimingIsMeasured : Prop :=
  ∀ (s : State) (t n : Nat), n < 8 →
    let d := (s.at t).dev
    let l := d.lane n
    let p := n / 2
    let waits := fun (b : FabBlock) (at_ : Nat) (s' : State) =>
      s'.dev.link p = { d.link p with tx := (d.link p).tx ++ [⟨b, at_, some n⟩] } ∧ s'.dev.fab.lanes = d.fab.lanes
        ∧ (∀ q, q ≠ p → s'.dev.link q = d.link q) ∧ Only [.fab] t s s'
    let retrains := fun (s' : State) =>
      (s'.dev.lane n).stage = .block ∧ (s'.dev.lane n).fast = true ∧ Raised Ev.FAB_CLOCK_MISMATCH s s' ∧ Raised Ev.FAB_LANE_DOWN s s'
        ∧ Only [.fab, .log, .out, .openIx, .host] t s s'
    (∀ frac, frac < 65536 →
      let at_ := 160 * s.now t + 160 * frac / 65536
      (l.stage = .up → l.idle = false → Runs (.delayBlockSend t n frac) s (waits (.delay ⟨0, none⟩) at_)) ∧
      (l.stage = .delay → l.idle = false →
        let st := max l.free at_
        let now := (st - 160 * s.dev.tim.tbc0) * 65536 / 160
        Runs (.delayBlockSend t n frac) s fun s' =>
          (∃ line, Out.fab n st (.delay ⟨now, l.lastRx⟩) line ∈ s'.dev.out) ∧ (s'.dev.lane n).lastTx = some now ∧ (s'.dev.lane n).tx = l.tx + 1
            ∧ (s'.dev.lane n).free = st + 5008 * 2 ^ s.dev.pni P.fab_rate p ∧ Only [.fab, .out, .openIx] t s s')) ∧
    (∀ (rx t1 t2 : Nat) (m : DelayMsg), l.lastTx = some t1 → m.tLast = some t2 →
      let dly := ((rx - t1) - (m.tTx - t2)) / 2 * 1600 / 65536
      Runs (.delayBlockReceive t n rx m) s fun s' =>
        (s'.dev.lane n).delay = dly ∧ (s'.dev.lane n).lastRx = some rx ∧ (l.stage = .delay → (s'.dev.lane n).results = l.results ++ [dly])
          ∧ (l.stage ≠ .delay → (s'.dev.lane n).results = l.results) ∧ (∀ k, k ≠ n → s'.dev.lane k = d.lane k) ∧ Only [.fab] t s s') ∧
    (∀ (skip : Bool) (pads : Nat) (fill : Int),
      let most : Int := if skip then 112 else 68
      (∀ r : Int, -8 ≤ fill - 32 - 16 * r → fill - 32 - 16 * r < 8 → (fill - 32) % 16 ≠ 8 → (pads : Int) - most ≤ r → r ≤ pads → Runs (.elasticBlockReceive t n skip pads fill false) s fun s' =>
        (s'.dev.lane n).pads = l.pads + r ∧ (s'.dev.lane n).ebFill = (fill - 16 * r).toNat ∧ (s'.dev.lane n).stage = l.stage ∧ Only [.fab] t s s') ∧
      (l.stage = .up → Runs (.elasticBlockReceive t n skip pads fill true) s retrains)) ∧
    (l.stage = .up → l.idle = false → 4096 ≤ d.sinceSkip n → (∀ x ∈ (d.link p).tx, x.blk ≠ .skip) →
      Runs (.skipSend t n) s (waits .skip (160 * s.now t))) ∧
    (d.sinceSkip n < 4096 → Runs (.skipSend t n) s fun s' => Only [] t s s') ∧
    (let f := l.pads * 16 * 10000000 / ((12500000000 / 2 ^ s.dev.pni P.fab_rate p : Nat) : Int);
      (f.natAbs ≤ 2000 → Runs (.freqEstimate t n) s fun s' => s'.dev.lane n = { l with pads := 0, freq := f } ∧ Only [.fab] t s s') ∧
      (2000 < f.natAbs → f.natAbs ≤ 3000 → Runs (.freqEstimate t n) s fun s' =>
        s'.dev.lane n = { l with pads := 0, freq := f } ∧ Logged Ev.FAB_FREQ_WARN n s s' ∧ Only [.fab, .log, .out] t s s') ∧
      (3000 < f.natAbs → l.stage = .up → Runs (.freqEstimate t n) s fun s' => (s'.dev.lane n).freq = f ∧ retrains s'))

/-- R277, R278, R281: a LINK_STATE block is scheduled and passed on once; blocks are acknowledged, at most 128 wait for it, and a
NAK or 20 µs without an ACK lets them all be sent again; a unit in order is delivered once to its destination, or passed on
with its hop limit decremented, and one out of order is answered without effect. The model's choices in it: log entries 41,
42, 108, 111 and 133. -/
def Obligations.UnitsPassTheFabric : Prop :=
  ∀ (s : State) (t p : Nat), p < 4 →
    let d := (s.at t).dev
    let l := d.link p
    let put := fun (q : Nat) (b : FabBlock) => (d.link q).tx ++ if d.linkUp q then [(⟨b, 160 * s.now t, none⟩ : TxItem)] else []
    let last := (l.rxSeq + 255) % 256
    let again := fun (s' : State) => s'.dev.link p = { l with again := l.unacked.length, sentAt := s.now t, queuedAt := 160 * s.now t }
      ∧ (∀ q, q ≠ p → s'.dev.link q = d.link q) ∧ Only [.fab] t s s'
    ((s.dev.link p).unacked.length ≤ 128 → l.unacked.length ≤ 128) ∧
    (∀ (lane : Nat) (c : LinkChange) (rs : List Route), lane < 4 →
      (s.dev.fab.known.find (4 * c.seg + c.port) ≠ some c → Runs (.linkStateReceive t lane c rs) s fun s' =>
        s'.dev.fab.known.find (4 * c.seg + c.port) = some c ∧ s'.dev.fab.plans = s.dev.fab.plans ++ [c] ∧ s'.dev.fab.routes = rs
          ∧ (s'.dev.link (1 - lane / 2)).tx = put (1 - lane / 2) (.linkState c) ∧ Only [.fab, .host, .log, .out] t s s') ∧
      (s.dev.fab.known.find (4 * c.seg + c.port) = some c → Runs (.linkStateReceive t lane c rs) s fun s' =>
        s'.dev.fab.plans = s.dev.fab.plans ∧ s'.dev.fab.links = d.fab.links ∧ Only [.fab] t s s')) ∧
    (∀ seq, seq < 256 →
      let n := (seq + 257 - l.base) % 256
      (0 < n → n ≤ l.unacked.length → Runs (.ackReceive t p seq false) s fun s' =>
        s'.dev.link p = { l with base := (l.base + n) % 256, unacked := l.unacked.drop n, again := min l.again (l.unacked.length - n),
                                 sentAt := s.now t, queuedAt := 160 * s.now t }
          ∧ (∀ q, q ≠ p → s'.dev.link q = d.link q) ∧ Only [.fab] t s s') ∧
      (n = 0 → Runs (.ackReceive t p seq true) s again)) ∧
    (l.unacked ≠ [] → l.sentAt + ticksOfUs 20 ≤ s.now t → Runs (.ackTimeout t p) s again) ∧
    (0 < l.rxN → Runs (.ackSend t p) s fun s' =>
      s'.dev.link p = { l with rxN := 0, tx := put p (.ack last false) } ∧ (∀ q, q ≠ p → s'.dev.link q = d.link q) ∧ Only [.fab] t s s') ∧
    (∀ (lane seq : Nat) (u : FabUnit), lane < 8 → lane / 2 = p → seq < 256 → 1 ≤ u.len → u.len ≤ (if u.bulk then 4194304 else 65536) → u.hops < 256 → u.kind ≤ 3 →
      let go := Instr.messageUnitReceive t lane seq u
      let on := if 1 < u.hops then unitBlocks { u with hops := u.hops - 1 } else []
      (l.rxSeq ≠ seq → Runs go s fun s' =>
        s'.dev.link p = { l with rxN := 0, tx := put p (.ack last (decide ((seq + 256 - l.rxSeq) % 256 < 128))) } ∧ Only [.fab] t s s') ∧
      (l.rxSeq = seq → Runs go s fun s' =>
        (s'.dev.link p).rxSeq = (seq + (u.len + 63) / 64) % 256
        ∧ (∀ a, u.dest = some a → a = s.dev.addr →
            ((u.src, u.id) ∉ s.dev.fab.delivered → Out.unit u ∈ s'.dev.out ∧ s'.dev.fab.delivered = (u.src, u.id) :: s.dev.fab.delivered)
            ∧ ((u.src, u.id) ∈ s.dev.fab.delivered → s'.dev.out = d.out))
        ∧ (∀ a q, u.dest = some a → a ≠ s.dev.addr → d.routePort a = some q → (s'.dev.link q).queue = (d.link q).queue ++ on)
        ∧ (u.dest = none → u.src ≠ s.dev.addr → (u.src, u.id) ∉ s.dev.fab.delivered → Out.unit u ∈ s'.dev.out)
        ∧ (u.dest = none → u.src ≠ s.dev.addr → (∀ c ∈ s.dev.fab.casts, (c.1, c.2.1) ≠ (u.src, u.id)) →
            ∀ q ∈ [0, 1, 3], q ≠ p → d.linkUp q = true → (s'.dev.link q).queue = (d.link q).queue ++ on)
        ∧ Only [.fab, .out] t s s'))


/-! ## Duplex twins (chapter 9) -/

/-- R302, R306, R309, R310, R313, R315 to R317, R322: a drone on either path renews the lease, shows the epoch to follow or to
give way to, makes a joining device a standby, and is compared with the own digest; one with the own letter stops the device;
a join that hears none ends in a claim; the health report carries the reasons. The model's choices in it: log entries 10, 62
and 95. -/
def Obligations.DronesCarryLeaseAndEpoch : Prop :=
  ∀ (s : State) (t : Nat), s.dev.duplex = true →
    let x := s.dev.twin
    let made := fun (b : FabBody) (s' : State) => s.dev.linkUp 2 = true → s.dev.twinAddr ≠ none → Made 1 s.dev.twinAddr b s'
    (∀ (lane : Nat) (b : Drone), lane = 4 ∨ lane = 5 → 1 ≤ b.role → b.role ≤ 3 →
      (b.twinB = s.dev.boot.twinSel → x.strap = false → Runs (.droneReceive t lane b) s fun s' =>
        s'.dev.twin = { x with strap := true, role := .joining } ∧ (∀ p ∈ s'.dev.cp.ports, p.2.stage = .off) ∧ Logged Ev.DUP_STRAP 0 s s'
          ∧ Only [.fab, .twin, .cp, .log, .out] t s s') ∧
      (b.twinB ≠ s.dev.boot.twinSel →
        (x.role = .standby → Runs (.droneReceive t lane b) s fun s' =>
          (0 < b.lease → x.lExp ≤ b.lease → s'.dev.twin.lExp = b.lease ∧ s'.dev.twin.heard = false)
          ∧ (b.lease = 0 ∨ b.lease < x.lExp → s'.dev.twin.lExp = x.lExp ∧ s'.dev.twin.heard = true)
          ∧ (x.lostHolder = false → s'.dev.twin.epoch = if b.role = 1 ∧ x.epoch ≤ b.epoch then b.epoch else x.epoch)
          ∧ (b.cycle = s.dev.cyc.k → s'.dev.twin.t.got = true)
          ∧ (∀ g, 2 ≤ b.cycle → x.digests.find (b.cycle - 2) = some g → x.compared < b.cycle - 2 → g ≠ b.digest → x.stage ≠ .sync →
              s.dev.pn P.dup_dig_limit ≤ x.misRun + 1 → s'.dev.twin.stage = .sync ∧ Raised Ev.DUP_SYNC_START s s')
          ∧ s'.dev.twin.role = .standby ∧ Only [.fab, .twin, .log, .out] t s s') ∧
        (x.role = .holder → b.role = 1 → x.epoch < b.epoch → x.demote = none → Runs (.droneReceive t lane b) s fun s' =>
          s'.dev.twin.demote = some (1, b.epoch) ∧ s'.dev.twin.epoch = x.epoch ∧ Only [.fab, .twin, .log, .out] t s s') ∧
        (∀ g, x.role = .holder → b.role = 2 → 2 ≤ b.cycle → x.digests.find (b.cycle - 2) = some g → x.compared < b.cycle - 2 →
          Runs (.droneReceive t lane b) s fun s' =>
            (g = b.digest → s'.dev.twin.matchRun = x.matchRun + 1 ∧ s'.dev.twin.misRun = 0 ∧ s'.dev.twin.mism = x.mism)
            ∧ (g ≠ b.digest → s'.dev.twin.matchRun = 0 ∧ s'.dev.twin.misRun = x.misRun + 1 ∧ s'.dev.twin.mism = x.mism + 1)
            ∧ s'.dev.twin.role = .holder ∧ Only [.fab, .twin, .log, .out] t s s') ∧
        (x.role = .joining → b.role = 1 → b.cycle ≤ s.dev.cyc.k → Runs (.droneReceive t lane b) s fun s' =>
          s'.dev.twin.role = .standby ∧ s'.dev.twin.stage = .sync ∧ s'.dev.twin.epoch = b.epoch ∧ s'.dev.twin.lExp = b.lease
            ∧ s'.dev.twin.synced = false ∧ Raised Ev.DUP_SYNC_START s s' ∧ Only [.fab, .twin, .log, .out] t s s'))) ∧
    (∀ f : HbFrame, 1 ≤ f.role → f.role ≤ 3 → f.cycle < 2 ^ 32 → f.lease < 2 ^ 16 → f.ok = false → Runs (.hbFrameReceive t f) s fun s' =>
      s'.dev.twin = { x with hbErrs := x.hbErrs + 1 } ∧ Only [.twin] t s s') ∧
    (∀ (f : HbFrame) (L : Nat), f.ok = true → 1 ≤ f.role → f.role ≤ 3 → f.twinB ≠ s.dev.boot.twinSel → f.cycle = s.dev.cyc.k % 2 ^ 32 → x.role = .standby →
      f.lease = (if f.role = 1 then L % 65536 else 0) → s.dev.cyc.k < L + 32768 → L < s.dev.cyc.k + 32768 → Runs (.hbFrameReceive t f) s fun s' =>
        s'.dev.twin.hb.got = true ∧ (2 ≤ s.dev.cyc.k → s'.dev.twin.hbDigest = some (s.dev.cyc.k - 2, f.digest))
        ∧ (f.role = 1 → 0 < L → x.lExp ≤ L → s'.dev.twin.lExp = L ∧ s'.dev.twin.heard = false)
        ∧ (f.role ≠ 1 → s'.dev.twin.lExp = x.lExp ∧ s'.dev.twin.heard = true ∧ s'.dev.twin.epoch = x.epoch) ∧ Only [.twin] t s s') ∧
    (x.role = .joining → x.strap = false →
      (x.joinAt + ticksOfMs (s.dev.pn P.dup_join_ms) ≤ s.now t ∧ x.lastDrone = none) ∨
        (∃ b, x.bootAt = some b ∧ b + min (ticksOfMs (s.dev.pn P.dup_join_ms)) (ticksOfMs 1000) ≤ s.now t ∧ ∀ y, x.lastDrone = some y → y.role ≠ 1) →
      Runs (.joinTimeout t) s fun s' => s'.dev.twin = { x with claim := true } ∧ Only [.twin] t s s') ∧
    Runs (.healthReportSend t) s (fun s' => ∃ r, made (.health r) s' ∧ s'.dev.twin.own = r ∧ s'.dev.twin.reportsTx = x.reportsTx + 1
      ∧ r.cycle = s.dev.cyc.k ∧ r.epoch = x.epoch ∧ r.twinB = s.dev.boot.twinSel ∧ r.reasons = s.dev.unfitReasons ∧ r.ports = s.dev.portsInRun
      ∧ (x.role = .standby → x.stage = .ready → s.dev.unfitReasons ≠ 0 → s'.dev.twin.stage = .unfit ∧ r.stage = 2 ∧ Logged Ev.DUP_UNFIT s.dev.unfitReasons s s')
      ∧ (x.role = .standby → x.stage = .unfit → s.dev.unfitReasons = 0 → s'.dev.twin.stage = .ready ∧ Logged Ev.DUP_READY 0 s s')
      ∧ Only [.fab, .twin, .log, .out] t s s') ∧
    ∀ r, Runs (.healthReportReceive t r) s fun s' =>
      s'.dev.twin = { x with twinHealth := some r, reportsRx := x.reportsRx + 1 } ∧ Only [.twin, .boot] t s s'

/-- R304, R320, R323 to R325: a twin-agreed change waits for its apply cycle and is acknowledged; a snapshot is requested, named
four cycles on, replayed at two cycles for each, or fails and is requested again, three times in 10 s; the holder's committed
set replaces both copies; DUP_HANDOVER names the eighth cycle, DUP_RESYNC starts the transfer. The model's choices in it: log
entries 10, 62 and 86. -/
def Obligations.StateTransferAndHandover : Prop :=
  ∀ (s : State) (t : Nat),
    let x := s.dev.twin
    let k := s.dev.cyc.k
    let made := fun (b : TwinCmd) (s' : State) => s.dev.linkUp 2 = true → s.dev.twinAddr ≠ none → Made 1 s.dev.twinAddr (.twinCmd b) s'
    (∀ c : TwinChange, c.port < 48 → k < c.apply → c ∉ x.changes → Runs (.twinCmdReceive t (.change c)) s fun s' =>
      s'.dev.twin = { x with changes := x.changes ++ [c] } ∧ made (.changeAck c) s' ∧ Only [.twin, .fab, .out] t s s') ∧
    (x.role = .holder → Runs (.twinCmdReceive t .snapRequest) s fun s' =>
      s'.dev.twin = { x with sync := some ⟨k + 4, none⟩ } ∧ made (.snapCycle (k + 4)) s' ∧ Only [.twin, .fab, .out] t s s') ∧
    (∀ c, x.role = .standby → x.stage = .sync → x.synced = false → Runs (.twinCmdReceive t (.snapCycle c)) s fun s' =>
      s'.dev.twin = { x with sync := some ⟨c, none⟩ } ∧ Only [.twin] t s s') ∧
    (∀ y : Carried, x.role = .standby → x.stage = .sync → x.sync = some ⟨y.c, none⟩ → Runs (.snapshotComplete t y) s fun s' =>
      s'.dev.twin = { x with shadow := some y, sync := some ⟨y.c, some (k + max 1 (k - y.c))⟩ } ∧ Only [.twin] t s s') ∧
    (∀ y, x.sync = some y → x.role = .standby → y.c + s.dev.pn P.dup_sync_window ≤ k →
      let recent := x.syncFails.filter fun a => decide (s.now t < a + ticksOfS 10)
      Runs (.syncWindowExpiry t) s fun s' =>
        s'.dev.twin.sync = none ∧ s'.dev.twin.shadow = none ∧ s'.dev.twin.syncsFailed = x.syncsFailed + 1 ∧ Logged Ev.DUP_SYNC_FAIL 0 s s'
        ∧ s'.dev.twin.syncHeld = decide (2 ≤ recent.length) ∧ s'.dev.twin.asked = decide (recent.length < 2)
        ∧ (recent.length < 2 → made .snapRequest s') ∧ s'.dev.twin.stage = x.stage ∧ Only [.twin, .fab, .log, .out] t s s') ∧
    (∀ vals : List (Nat × Int), s.dev.duplex = true → x.role = .standby → x.stage = .sync → x.synced = false → Runs (.paramUnitReceive t vals) s fun s' =>
      s'.dev.par.copy0 = s'.dev.par.copy1 ∧ s'.dev.par.copy0.gen = max s.dev.par.copy0.gen s.dev.par.copy1.gen + 1 ∧ s'.dev.par.copy0.good = true
      ∧ s'.dev.par.active = s'.dev.par.copy0.vals
      ∧ (∀ key v, (key, v) ∈ vals → (∀ w, (key, w) ∈ vals → w = v) → cfgExcluded (key / 65536) = false → (paramDef? (key / 65536)).isSome = true →
          s'.dev.par.copy0.vals.find key = some v)
      ∧ (∀ key v, (key, v) ∈ s.dev.par.committed.vals → (∀ w, (key, w) ∈ s.dev.par.committed.vals → w = v) → cfgExcluded (key / 65536) = true →
          s'.dev.par.copy0.vals.find key = some v)
      ∧ s'.dev.twin.role = .joining ∧ s'.dev.twin.joinAt = s.now t ∧ s'.dev.twin.lastDrone = none ∧ Logged Ev.DUP_CFG_COPY 0 s s'
      ∧ Only [.par, .sar, .twin, .log, .out] t s s') ∧
    (∀ c : CmdRef, s.dev.accepts c 0x00B0 →
      (∀ b, x.role = .holder → x.lastDrone = some b → b.role = 2 → b.ready = true → b.tOk = true → b.hbOk = true → x.t.off = false → x.hb.off = false →
        x.rel = none → Runs (.dupHandover t c) s fun s' => s'.dev.twin = { x with rel := some (k + 8, c) } ∧ Only [.twin] t s s') ∧
      (x.role ≠ .holder ∨ x.t.off = true ∨ x.hb.off = true → Runs (.dupHandover t c) s fun s' =>
        Answered c 0x00B0 (stRes Sc.STATE) s s' ∧ Only [.host] t s s')) ∧
    ∀ c : CmdRef, s.dev.accepts c 0x00B1 →
      (x.role = .standby → Runs (.dupResync t c) s fun s' =>
        s'.dev.twin.stage = .sync ∧ s'.dev.twin.synced = false ∧ s'.dev.twin.syncHeld = false ∧ s'.dev.twin.asked = true
          ∧ made .snapRequest s' ∧ (x.stage ≠ .sync → Logged Ev.DUP_SYNC_START 0 s s')
          ∧ Answered c 0x00B1 (stRes Sc.DONE) s s' ∧ Only [.twin, .fab, .log, .out, .host] t s s') ∧
      (x.role ≠ .standby → Runs (.dupResync t c) s fun s' => Answered c 0x00B1 (stRes Sc.STATE) s s' ∧ Only [.host] t s s')

/-! ## Time (chapter 10) -/

/-- R334 to R340, R344 to R347: a message of the source moves control time by the servo only, a third one beyond the threshold
steps it; a preferred root is followed and a root gives way to it; TIME blocks carry root, hops and bound; time is invalid
after time.root_loss_cyc cycles without a source; the role is established, claimed and renewed at zero. The model's choices
in it: log entries 10, 11, 75, 76, 122 and 135. -/
def Obligations.ControlTimeFollowsTheRoot : Prop :=
  ∀ (s : State) (t : Nat),
    let u := s.dev.tim
    let now := (s.dev.at t).tbc32
    let follows := fun (port bound : Nat) (rx v : Int) (m : TimeMsg) (run : Instr) =>
      m.tMod = s.dev.tModTicks →
      (u.same m = true → u.isRoot = false → bound ≤ 5000 → (∀ p, p < 4 → p ≠ port → s.dev.usable p = none) → (port = 3 → m.tCross = false) →
        let e := v - u.ct.at rx
        ((e.natAbs : Int) ≤ s.dev.stepLimit → Runs run s fun s' =>
          s'.dev.tim.src = some port ∧ s'.dev.tim.srcBound = bound ∧ s'.dev.tim.lastErr = e ∧ s'.dev.tim.lastAcc = some rx ∧ s'.dev.tim.claimCycles = 0
          ∧ s'.dev.tim.ct.at rx = u.ct.at rx
          ∧ (∀ t0, u.lastAcc = some t0 → t0 < rx → let f := e * 2 ^ 40 / (rx - t0)
              s'.dev.tim.rInt = clampInt (-(ppm40 300)) (ppm40 300) (u.rInt + f / 16)
              ∧ s'.dev.tim.ct.rho = s'.dev.tim.rInt + clampInt (-(ppm40 (s.dev.pv P.time_ct_slew_ppm))) (ppm40 (s.dev.pv P.time_ct_slew_ppm)) (f / 2))
          ∧ s'.dev.tim.goodRun = (if (e.natAbs : Int) ≤ 5 * 2 ^ 32 / 4 then u.goodRun + 1 else 0)
          ∧ (64 ≤ s'.dev.tim.goodRun → s'.dev.tim.ctValid = true ∧ (u.ctValid = false → Raised Ev.TIME_CT_VALID s s'))
          ∧ Only [.fab, .tim, .log, .out, .openIx] t s s') ∧
        (s.dev.stepLimit < e.natAbs → u.src = some port → u.outRun < 2 → Runs run s fun s' =>
          s'.dev.tim.ct = u.ct ∧ s'.dev.tim.outRun = u.outRun + 1 ∧ Raised Ev.TIME_CT_OUTLIER s s' ∧ Only [.fab, .tim, .log, .out, .openIx] t s s') ∧
        (s.dev.stepLimit < e.natAbs → u.src = some port → 2 ≤ u.outRun → s.dev.mode.conv = .deEnergised → Runs run s fun s' =>
          s'.dev.tim.ct.at rx = v ∧ s'.dev.tim.steps = u.steps + 1 ∧ s'.dev.tim.outRun = 0 ∧ Raised Ev.TIME_CT_STEP s s'
            ∧ s'.dev.cyc = { s.dev.cyc with cells := s'.dev.cyc.cells } ∧ Only [.fab, .tim, .cyc, .log, .out, .openIx] t s s')) ∧
      (u.prefers m = true → u.isRoot = true → Runs run s fun s' =>
        s'.dev.tim.yieldPending = true ∧ s'.dev.tim.gen = m.gen ∧ s'.dev.tim.root = m.root ∧ s'.dev.tim.rootM = m.m) ∧
      (u.prefers m = false → u.same m = false → Runs run s fun s' =>
        s'.dev.tim = { u with listened := u.listened || u.listening } ∧ Only [.fab, .tim] t s s')
    let carries := fun (m : TimeMsg) => m.gen = u.gen ∧ m.m = u.rootM ∧ m.tMod = s.dev.tModTicks ∧ m.ctValid = u.ctValid
        ∧ (u.isRoot = true → m.root = s.dev.addr ∧ m.hops = 0 ∧ m.acc = 0) ∧ (u.isRoot = false → m.root = u.root ∧ m.hops = u.srcHops)
        ∧ (u.isRoot = false → u.src = none → u.ctValid = false → m.acc = 0xFFFF) ∧ (u.isRoot = false → u.ctValid = true → m.acc = u.srcBound)
    let wrong := fun (m : TimeMsg) (run : Instr) => m.tMod ≠ s.dev.tModTicks → Runs run s fun s' =>
      s'.dev.tim = { u with outliers := u.outliers + 1 } ∧ Logged Ev.TIME_CT_OUTLIER 0 s s' ∧ Only [.fab, .tim, .log, .out] t s s'
    (∀ (lane rx : Nat) (m : TimeMsg), lane < 8 → lane / 2 ≠ 2 →
      let din := (2 * (s.dev.laneDelay lane : Int) + s.dev.pvi P.time_link_asym_ps lane) * 2 ^ 32 * (2 ^ 40 + u.ct.rho) / (2 * 1600 * 2 ^ 40)
      follows (timePort (lane / 2)) (m.acc + 125) ((rx : Int) * 2 ^ 16) (s.dev.msgTime m + din) m (.timeBlockReceive t lane rx m)
        ∧ wrong m (.timeBlockReceive t lane rx m)) ∧
    (∀ (rx : Nat) (m : TimeMsg), follows 3 (m.acc + 500) ((rx : Int) * 2 ^ 16) (s.dev.msgTime m) m (.timeRelayReceive t rx m) ∧ wrong m (.timeRelayReceive t rx m)) ∧
    (∀ port frac, port < 3 → frac < 65536 → s.dev.timePortUp port = true → u.isRoot = true ∨ u.lastAcc.isSome = true →
        let p := if port = 2 then 3 else port
        Runs (.timeBlockSend t port frac) s fun s' =>
          ∃ m, (s'.dev.link p).tx = ((s.at t).dev.link p).tx ++ [⟨.time m, 160 * s.now t + 160 * frac / 65536, none⟩]
            ∧ carries m ∧ (∀ n st, ∃ m', s'.dev.stamped n st (.time m) = .time m' ∧ carries m' ∧ m'.tTx = (st - 160 * u.tbc0) * 65536 / 160)
            ∧ Only [.fab] t s s') ∧
    (s.dev.duplex = true → s.dev.linkUp 2 = true → s.dev.twinAddr ≠ none → Runs (.timeRelaySend t) s fun s' =>
        ∃ m, Made 1 s.dev.twinAddr (.timeRelay m) s' ∧ m.gen = u.gen ∧ (u.src = some 3 → m.acc = 0xFFFF) ∧ (u.src ≠ some 3 → carries m)
          ∧ Only [.fab, .out] t s s') ∧
    (u.isRoot = false → u.ctValid = true → u.src = none → s.dev.pn P.time_root_loss_cyc ≤ u.lossCycles → Runs (.sourceLossTimeout t) s fun s' =>
      s'.dev.tim = { u with ctValid := false, goodRun := 0 } ∧ Logged Ev.TIME_CT_INVALID 0 s s' ∧ Only [.tim, .log, .out] t s s') ∧
    (u.listening = true → u.listened = false → Runs (.rootListenExpiry t) s fun s' =>
      s'.dev.tim.isRoot = true ∧ s'.dev.tim.gen = 1 ∧ s'.dev.tim.root = s.dev.addr ∧ s'.dev.tim.ct.at now = 0 ∧ s'.dev.tim.ct.rho = 0
        ∧ s'.dev.tim.ctValid = true ∧ s'.dev.cyc = { s.dev.cyc with cells := s'.dev.cyc.cells } ∧ Only [.tim, .cyc, .log, .out] t s s') ∧
    (u.listening = true → u.listened = true → Runs (.rootListenExpiry t) s fun s' => s'.dev.tim = { u with listening := false } ∧ Only [.tim] t s s') ∧
    (∀ m, s.dev.rootDistance = some m → 1 ≤ m → u.isRoot = false → s.dev.leads = true → (m + 1) * s.dev.pn P.time_root_loss_cyc ≤ u.claimCycles →
      Runs (.rootClaim t) s fun s' =>
        s'.dev.tim.isRoot = true ∧ s'.dev.tim.gen = (u.gen + 1) % 65536 ∧ s'.dev.tim.rootM = m ∧ s'.dev.tim.ct.at now = u.ct.at now ∧ s'.dev.tim.ct.rho = 0
          ∧ s'.dev.tim.ctValid = true ∧ Raised Ev.TIME_ROOT_CHANGE s s' ∧ Only [.tim, .log, .out] t s s') ∧
    (u.isRoot = true → 2 ^ 47 < (s.dev.at t).ctCycle (s.dev.at t).ctNow → s.dev.log.last.find (Ev.TIME_CT_WRAP_NEAR * 65536) = none →
      Runs (.ctWrapNear t) s fun s' => Raised Ev.TIME_CT_WRAP_NEAR s s'
        ∧ (s.dev.mode.conv = .deEnergised → s'.dev.tim.gen = (u.gen + 1) % 65536 ∧ s'.dev.tim.ct.at now = 0 ∧ s'.dev.tim.isRoot = true)
        ∧ (s.dev.mode.conv ≠ .deEnergised → s'.dev.tim = u ∧ s'.dev.cyc = s.dev.cyc) ∧ Only [.tim, .cyc, .log, .out] t s s')

/-- R349, R351 to R354: the first PTP offset, corrected to the pins, steps wall time and makes it valid, a small one changes its
rate only, one beyond time.step_limit_ns is refused or held until TIME_WALL_STEP applies it; a lost master holds wall time
over, at most time.holdover_max_s; fabric wall time is only checked. Nothing of it moves control time. The model's choices in
it: log entries 10, 77, 98 and 134. -/
def Obligations.WallTimeFollowsItsMaster : Prop :=
  ∀ (s : State) (t : Nat),
    let u := s.dev.tim
    let now := (s.dev.at t).tbc32
    let keeps := fun (s' : State) => s'.dev.tim.ct = u.ct ∧ s'.dev.tim.ctValid = u.ctValid ∧ Only [.tim, .log, .out] t s s'
    let sl := ppm40 (s.dev.pv P.time_wall_slew_ppm)
    (∀ (port : Bool) (ofs rate : Int) (path : Nat), bitN (s.dev.pn P.time_ptp_port_en) (bit01 port) = true →
      let run := Instr.ptpSyncReceive t port ofs rate path
      let o := s.dev.pinOffset port ofs
      let beyond := s.dev.pv P.time_step_limit_ns * 65536 < o.natAbs
      (u.wallFab = false ∨ u.isRoot = true →
        (u.wallValid = false → Runs run s fun s' =>
          s'.dev.tim.wall.at now = u.wall.at now + o * (5 * 2 ^ 16) / 8 ∧ s'.dev.tim.wallValid = true ∧ s'.dev.tim.following = true
            ∧ Logged Ev.TIME_PTP_LOCK 0 s s' ∧ keeps s') ∧
        (u.wallValid = true → ¬beyond → u.wallHold = false → Runs run s fun s' =>
          s'.dev.tim.wall.at now = u.wall.at now ∧ s'.dev.tim.wall.rho = clampInt (-sl) sl rate ∧ s'.dev.tim.wallRef = false ∧ s'.dev.tim.pendStep = none
            ∧ s'.dev.log = s.dev.log ∧ keeps s') ∧
        (u.wallValid = true → beyond → s.dev.holdsOver = false → Runs run s fun s' =>
          s'.dev.tim.wall.at now = u.wall.at now ∧ s'.dev.tim.pendStep = some o ∧ s'.dev.tim.wallRef = true
            ∧ (u.wallRef = false → Logged Ev.TIME_STEP_REFUSED 0 s s') ∧ (u.wallRef = true → s'.dev.log = s.dev.log) ∧ keeps s') ∧
        (u.wallValid = true → beyond → s.dev.holdsOver = true → Runs run s fun s' =>
          s'.dev.tim.wall = u.wall ∧ s'.dev.tim.pendStep = some o ∧ s'.dev.tim.wallHold = true ∧ s'.dev.tim.following = false
            ∧ (u.wallHold = false → Logged Ev.TIME_HOLDOVER 0 s s') ∧ keeps s')) ∧
      (u.wallFab = true → u.isRoot = false → Runs run s fun s' =>
        s'.dev.tim.wall = u.wall ∧ s'.dev.tim.lastOfs = o ∧ (s.dev.pn P.time_wall_check_ns * 65536 < o.natAbs → Logged Ev.TIME_WALL_DIFF 0 s s') ∧ keeps s')) ∧
    (∀ (port : Bool) (best : BitVec 64) (n r : Nat), bitN (s.dev.pn P.time_ptp_port_en) (bit01 port) = true → Runs (.announceReceive t port best n r) s fun s' =>
      s'.dev.tim.master = some best ∧ s'.dev.tim.lostMaster = none ∧ s'.dev.tim.stepsRemoved = r ∧ s'.dev.tim.masterPort = n ∧ s'.dev.tim.lastAnn = s.now t ∧ s'.dev.tim.wall = u.wall
        ∧ (u.master ≠ some best ∨ u.lostMaster ≠ none → s'.dev.tim.masters = u.masters + 1 ∧ Logged Ev.TIME_MASTER_CHANGE 0 s s')
        ∧ (u.master = some best → u.lostMaster = none → s'.dev.tim.masters = u.masters ∧ s'.dev.log = s.dev.log) ∧ keeps s') ∧
    (u.master ≠ none → u.lostMaster = none → u.lastAnn + ticksOfS 3 ≤ s.now t → Runs (.announceTimeout t) s fun s' =>
      s'.dev.tim.lostMaster = some (s.now t) ∧ s'.dev.tim.wallHold = true ∧ s'.dev.tim.following = false ∧ s'.dev.tim.wall = u.wall
        ∧ Logged Ev.TIME_MASTER_LOST 0 s s' ∧ keeps s') ∧
    (∀ t0, u.lostMaster = some t0 → u.wallValid = true → t0 + ticksOfS (s.dev.pn P.time_holdover_max_s) ≤ s.now t → Runs (.holdoverLimit t) s fun s' =>
      s'.dev.tim = { u with wallValid := false } ∧ Logged Ev.TIME_WALL_INVALID 0 s s' ∧ keeps s') ∧
    (∀ c, s.dev.accepts c 0x00C0 →
      (∀ ofs, u.pendStep = some ofs → Runs (.timeWallStep t c) s fun s' =>
        s'.dev.tim.wall.at now = u.wall.at now + ofs * (5 * 2 ^ 16) / 8 ∧ s'.dev.tim.pendStep = none ∧ s'.dev.tim.wallRef = false ∧ s'.dev.tim.wallHold = false
          ∧ s'.dev.tim.ct = u.ct ∧ Answered c 0x00C0 (stRes Sc.DONE) s s' ∧ Only [.tim, .host] t s s') ∧
      (u.pendStep = none → Runs (.timeWallStep t c) s fun s' => Answered c 0x00C0 (stRes Sc.STATE) s s' ∧ Only [.host] t s s'))

/-! ## The recorder (chapter 11) -/

/-- R360, R367, R369, R370, R372, R378, R379: REC_ARM arms a configuration that passes its checks and answers L_align and k;
REC_DISARM waits for the next boundary, REC_FORCE for the first undecided slot; REC_READ answers bytes of a complete record's
image, REC_RELEASE frees its segments, REC_LIST names records. The model's choices in it: log entries 10, 71, 79 and 80. -/
def Obligations.RecorderCommands : Prop :=
  ∀ (s : State) (t : Nat) (c : CmdRef),
    let r := s.dev.acq
    let replies := fun (op : Nat) (x : CmdResult) (s' : State) => Answered c op x s s' ∧ Only [.host] t s s'
    (∀ mode, mode ≤ 1 → s.dev.accepts c 0x00D0 →
      let d := s.dev.takeClass .arm
      (r.armed = true ∨ r.current ≠ none ∨ r.closing ≠ [] ∨ (s.dev.mode.doms.get {} 8).faulty = true →
        Runs (.recArm t c mode) s (replies 0x00D0 (stRes Sc.STATE))) ∧
      (r.armed = false → r.current = none → r.closing = [] → (s.dev.mode.doms.get {} 8).faulty = false →
        (∀ e, d.armPlan = .error e → Runs (.recArm t c mode) s fun s' => Answered c 0x00D0 (stRes e) s s' ∧ s'.dev.par = d.par ∧ Only [.par, .host] t s s') ∧
        (∀ p, d.armPlan = .ok p → Runs (.recArm t c mode) s fun s' =>
          s'.dev.acq.armed = true ∧ s'.dev.acq.auto = (mode == 1) ∧ s'.dev.acq.units = p.units ∧ s'.dev.acq.chans = p.chans ∧ s'.dev.acq.k = p.k
            ∧ s'.dev.acq.lAlign = p.lAlign ∧ s'.dev.acq.fires = [] ∧ s'.dev.acq.made = 0
            ∧ (p.k ≤ d.recPool.freeSegs.length → s'.dev.acq.waiting = false ∧ s'.dev.log = s.dev.log)
            ∧ Answered c 0x00D0 ⟨Sc.DONE, wordsBytes [p.lAlign, p.k], []⟩ s s' ∧ s'.dev.par = d.par ∧ Only [.acq, .meas, .par, .log, .out, .host] t s s'))) ∧
    (∀ mode, mode ≤ 1 → s.dev.accepts c 0x00D1 →
      (r.disarm = none → r.armed = true ∨ r.current ≠ none ∨ r.closing ≠ [] → Runs (.recDisarm t c mode) s fun s' =>
        s'.dev.acq = { r with disarm := some (c, mode == 1) } ∧ Only [.acq] t s s') ∧
      (r.disarm ≠ none ∨ (r.armed = false ∧ r.current = none ∧ r.closing = []) → Runs (.recDisarm t c mode) s (replies 0x00D1 (stRes Sc.STATE)))) ∧
    (s.dev.accepts c 0x00D2 →
      (r.armed = true → r.waiting = false → r.current = none → r.forced = none → Runs (.recForce t c) s fun s' =>
        s'.dev.acq = { r with forced := some (c, (s.dev.at t).undecided) } ∧ Only [.acq] t s s') ∧
      (r.armed = false ∨ r.waiting = true ∨ r.current ≠ none ∨ r.forced ≠ none → Runs (.recForce t c) s (replies 0x00D2 (stRes Sc.STATE)))) ∧
    (∀ id, s.dev.accepts c 0x00D3 →
      (∀ x offset length, (∀ y ∈ r.current.toList ++ r.closing, y.id ≠ id) → r.records.find? (fun y => y.id == id) = some x → offset + length ≤ recBytes x.chans →
        Runs (.recRead t c id offset length) s (replies 0x00D3 ⟨Sc.DONE, [], ((recImage s.dev.tModTicks s.dev.addr x).drop offset).take length⟩)) ∧
      (∀ offset length, (∀ y ∈ r.current.toList ++ r.closing, y.id ≠ id) → (∀ y ∈ r.records, y.id ≠ id) → Runs (.recRead t c id offset length) s (replies 0x00D3 (stRes Sc.NO_RECORD))) ∧
      (∀ offset length, (∃ y ∈ r.current.toList ++ r.closing, y.id = id) → Runs (.recRead t c id offset length) s (replies 0x00D3 (stRes Sc.BUSY)))) ∧
    (∀ id, s.dev.accepts c 0x00D4 → r.waiting = false →
      (id = 0 ∨ ((∃ y ∈ r.records, y.id = id) ∧ (∀ y ∈ r.current.toList ++ r.closing, y.id ≠ id) ∧ s.dev.recReading id = false) → Runs (.recRelease t c id) s fun s' =>
        s'.dev.acq.records = r.records.filter (fun y => !(id == 0 || y.id == id))
          ∧ (∀ y ∈ r.records, id = 0 ∨ y.id = id → y.damaged = false → ∀ n ∈ y.segs, n ∉ s'.dev.acq.used)
          ∧ (∀ n ∈ s'.dev.acq.used, n ∈ r.used) ∧ Answered c 0x00D4 (stRes Sc.DONE) s s' ∧ Only [.acq, .host] t s s') ∧
      (id ≠ 0 → (∀ y ∈ r.current.toList ++ r.closing, y.id ≠ id) → s.dev.recReading id = false → (∀ y ∈ r.records, y.id ≠ id) → Runs (.recRelease t c id) s (replies 0x00D4 (stRes Sc.NO_RECORD))) ∧
      (id ≠ 0 → (∃ y ∈ r.current.toList ++ r.closing, y.id = id) ∨ s.dev.recReading id = true → Runs (.recRelease t c id) s (replies 0x00D4 (stRes Sc.BUSY)))) ∧
    ∀ first count, s.dev.accepts c 0x00D5 → count ≤ 64 →
      Runs (.recList t c first count) s (replies 0x00D5 (byteResult (((r.records.filter fun y => first ≤ y.id).take count).flatMap fun y =>
        let i := splitInst s.dev.tModTicks y.trig
        bytesLE 4 y.id ++ bytesLE 6 i.1 ++ bytesLE 2 i.2.1 ++ bytesLE 4 i.2.2 ++ bytesLE 2 y.cause ++ bytesLE 6 (recBytes y.chans))))

/-- R363 to R368, R370, R372, R374 to R376: a decided slot that holds a qualified fire of a TRIG unit, or the forced one, starts
a record with its cause and instant; it completes at the end of its window; bus pulses leave 1 µs apart and arrive by their
width; a TRIGGER block passes on once and fires the units that watch its sender; lost staging is told. The model's choices in
it: log entries 10, 78 and 79. -/
def Obligations.RecordsAreDecidedAndExported : Prop :=
  ∀ (s : State) (t : Nat),
    let r := s.dev.acq
    let upto := ((s.dev.at t).ctTicks - r.alignTicks) / 25
    let starts := fun (x : Record) (s' : State) =>
      (s'.dev.acq.current = some x ∧ s'.dev.acq.used = r.used ++ x.segs ∨ r.auto = true ∧ s'.dev.acq.current = none ∧ s'.dev.acq.closing = r.closing ++ [x])
        ∧ x.id = r.nextId ∧ x.nSeg = r.k ∧ x.segs = s.dev.freeSegs.take r.k ∧ x.chans = r.chans ∧ x.lAlign = r.lAlign
        ∧ s'.dev.acq.nextId = r.nextId + 1 ∧ s'.dev.acq.made = r.made + 1 ∧ upto ≤ s'.dev.acq.next
        ∧ Raised Ev.REC_TRIGGER s s'
    (r.armed = true → r.waiting = false → r.current = none → r.rearmAt = none → r.auto = true ∨ r.made = 0 → s.dev.pn P.rec_count = 0 →
      (∀ c n, r.units = [] → r.fires = [] → r.forced = some (c, n) → c.xfer = .ok → r.eligible ≤ max n r.next → max n r.next < upto → Runs (.recordSlotDecision t) s fun s' =>
        ∃ x, starts x s' ∧ x.cause = 0 ∧ x.primary = 0x1F ∧ x.trig = (25 * max n r.next : Nat) * 2 ^ 32 ∧ s'.dev.acq.forced = none
          ∧ Answered c 0x00D2 (stRes Sc.DONE) s s' ∧ Only [.acq, .meas, .log, .out, .host, .fab] t s s') ∧
      (∀ f u, r.forced = none → r.hist = [] → r.fires = [f] → r.units[f.unit]? = some u → f.unit < 16 → (∀ v ∈ r.units, v.typ ≠ 5) → u.role = 1 →
        u.qual / 16 % 4 = 0 → u.ignore ≤ f.det → r.next ≤ f.slot → r.eligible ≤ f.slot → f.slot < upto → Runs (.recordSlotDecision t) s fun s' =>
          ∃ x, starts x s' ∧ x.primary = f.unit ∧ x.trig = f.inst ∧ x.q = f.q ∧ x.late = f.late ∧ (∀ i, i < 16 → bitN x.cause i = (i == f.unit))
            ∧ s'.dev.acq.fires = [] ∧ Only [.acq, .meas, .log, .out, .fab] t s s')) ∧
    (r.armed = false → Runs (.recordSlotDecision t) s fun s' => Only [] t s s') ∧
    (let stored := fun (x : Record) (s' : State) => ∃ y, s'.dev.acq.records = r.records ++ [y] ∧ y.id = x.id ∧ y.complete = true ∧ y.truncated = false ∧ y.trig = x.trig ∧ y.cause = x.cause;
      (∀ x, r.closing = [] → r.current = some x → (s.at t).dev.recAllIn x = true → r.forced = none → Runs (.recordComplete t) s fun s' =>
        stored x s' ∧ s'.dev.acq.current = none ∧ s'.dev.acq.armed = (r.armed && r.rearmAt.isSome) ∧ s'.dev.acq.rearmAt = (if r.armed then r.rearmAt else none)
          ∧ Raised Ev.REC_DONE s s' ∧ Only [.acq, .meas, .log, .out] t s s') ∧
      (∀ x xs, r.closing = x :: xs → (s.at t).dev.recAllIn x = true → r.armed = true → Runs (.recordComplete t) s fun s' =>
        stored x s' ∧ s'.dev.acq.closing = xs ∧ s'.dev.acq.current = r.current ∧ s'.dev.acq.armed = true ∧ Raised Ev.REC_DONE s s'
          ∧ Only [.acq, .meas, .log, .out] t s s') ∧
      (∀ x, r.closing = [] → r.current = some x → (s.at t).dev.recAllIn x = false → Runs (.recordComplete t) s fun s' =>
        s'.dev.acq.records = r.records ∧ s'.dev.acq.current = some x ∧ Only [.acq, .meas] t s s')) ∧
    (∀ n lost, Runs (.recTask t n lost) s fun s' =>
      Task.recBlock n ∈ s'.dev.cyc.done ∧ s'.dev.acq.taken = ((s.dev.at t).ctTicks : Int) * 256
        ∧ (0 < lost → r.hist ≠ [] → s'.dev.acq.overflows = r.overflows + 1 ∧ Raised Ev.REC_OVERFLOW s s')
        ∧ (lost = 0 → s'.dev.acq.overflows = r.overflows ∧ s'.dev.log = s.dev.log) ∧ Only [.acq, .meas, .cyc, .log, .out] t s s') ∧
    (∀ line x late, line < 4 → r.pulses.find? (fun p => p.1 == line) = some (line, x, late) → Runs (.busPulseSend t line) s fun s' =>
      ∃ start, Out.busPulse line start (if late then 128 else 64) ∈ s'.dev.out ∧ (s'.dev.acq.lines.get {} line).sentAt = some start
        ∧ (∀ last, (r.lines.get {} line).sentAt = some last → last + 625 ≤ start)
        ∧ ((r.lines.get {} line).sentAt = none → start = if late then ((s.dev.at t).ctTicks : Int) else x)
        ∧ (late = true → Logged Ev.REC_BUS_LATE line s s') ∧ (late = false → s'.dev.log = s.dev.log)
        ∧ s'.dev.acq.pulses.length + 1 = r.pulses.length ∧ Only [.acq, .log, .out] t s s') ∧
    (∀ (line width rx : Nat), line < 4 → s.dev.pvi P.rec_bus_mode line = 1 ∨ s.dev.pvi P.rec_bus_mode line = 2 →
      let inst := s.dev.tim.ct.at ((rx : Int) * 2 ^ 32)
        - ((s.dev.pni P.rec_bus_dly_ns line : Int) + (if s.dev.pvi P.rec_bus_mode line = 1 then (s.dev.pn P.rec_bus_ofs_ns : Int) else 0)) * 2 ^ 32 * 5 / 8
      (width < 40 → Runs (.busEdgeReceive t line width rx) s fun s' =>
        s'.dev.acq.fires = r.fires ∧ (s'.dev.acq.lines.get {} line).nGlitch = (r.lines.get {} line).nGlitch + 1
          ∧ (s'.dev.acq.lines.get {} line).accepted = (r.lines.get {} line).accepted ∧ Only [.acq] t s s') ∧
      (∀ u, 40 ≤ width → (r.lines.get {} line).accepted = none → r.armed = true → r.units = [u] → u.role ≠ 0 → u.typ = 6 → u.src = 0x9000 + line →
        Runs (.busEdgeReceive t line width rx) s fun s' => ∃ f : RecFire, s'.dev.acq.fires = r.fires ++ [f] ∧ f.unit = 0
          ∧ (s'.dev.acq.lines.get {} line).nValid = (r.lines.get {} line).nValid + 1
          ∧ (width < 96 → r.next ≤ (inst / 2 ^ 24 / 6400).toNat → f.inst = inst ∧ f.slot = (inst / 2 ^ 24 / 6400).toNat ∧ f.late = none)
          ∧ (96 ≤ width → f.inst = (25 * r.next : Nat) * 2 ^ 32 ∧ f.slot = r.next ∧ f.late = some inst) ∧ Only [.acq] t s s')) ∧
    (∀ (lane : Nat) (m : TrigMsg), lane < 8 →
      let inst := ((m.cycle * s.dev.tModTicks + m.tick : Nat) : Int) * 2 ^ 32 + m.tickF
      let seen := ∃ x ∈ r.casts, x.1 = m.src ∧ x.2.1 = m.recId ∧ s.now t < x.2.2 + ticksOfMs 1
      (m.gen ≠ s.dev.tim.gen ∨ 32 ≤ m.hops ∨ seen → Runs (.triggerBlockReceive t lane m) s fun s' =>
        s'.dev.acq = { r with fabDrop := r.fabDrop + 1 } ∧ s'.dev.fab.links = (s.at t).dev.fab.links ∧ Only [.fab, .acq] t s s') ∧
      (m.gen = s.dev.tim.gen → m.hops < 32 → ¬ seen → Runs (.triggerBlockReceive t lane m) s fun s' =>
        s'.dev.acq.fabRx = r.fabRx + 1 ∧ (m.src, m.recId, s.now t) ∈ s'.dev.acq.casts
          ∧ (∀ p, p < 4 → p ≠ lane / 2 → s.dev.linkUp p = true → m.hops + 1 < 32 → Waits p (.trigger { m with hops := m.hops + 1 }) s')
          ∧ (32 ≤ m.hops + 1 → s'.dev.fab.links = (s.at t).dev.fab.links)
          ∧ (∀ u, r.armed = true → r.units = [u] → u.role ≠ 0 → u.typ = 6 → u.src = 0xA000 + m.src ∨ u.src = 0xB000 →
              ∃ f : RecFire, s'.dev.acq.fires = r.fires ++ [f] ∧ f.unit = 0 ∧ (r.next ≤ (inst / 2 ^ 24 / 6400).toNat → f.inst = inst ∧ f.late = none))
          ∧ Only [.fab, .acq] t s s'))


/-! ## Modes and power states (chapter 15) -/

/-- R476 to R481: CONV_STATE and MODE_TEST at the converter lead follow Table 15-2 and name their apply cycle; state units wait
for it, acknowledgements are kept, a cancel unit or a block request ends a pending transition; the lead judges it; each cause
in force is requested from both lead twins; SELFTEST ends with its pass mask. The model's choices in it: log entries 10, 53,
56, 57, 92 and 93. -/
def Obligations.ConverterStateIsChangedByTheLead : Prop :=
  ∀ (s : State) (t : Nat),
    let m := s.dev.mode
    let ca := s.dev.ctlBoundaryFrom ((s.dev.at t).clk + ticksOfUs 60)
    let done := ({ status := Sc.DONE, result := wordsBytes [ca % 2 ^ 32, ca / 2 ^ 32], data := [] } : CmdResult)
    (∀ c n, s.dev.accepts c 0x0010 →
      (4 ≤ n → Runs (.convState t c n) s fun s' => Answered c 0x0010 (stRes Sc.BAD_ARG) s s' ∧ Only [.host] t s s') ∧
      (∀ v, n < 4 → convOf n = some v →
        (s.dev.convLead = false → Runs (.convState t c n) s fun s' => Answered c 0x0010 (stRes Sc.STATE) s s' ∧ Only [.host] t s s') ∧
        (s.dev.convLead = true → m.trans ≠ none → Runs (.convState t c n) s fun s' => Answered c 0x0010 (stRes Sc.BUSY) s s' ∧ Only [.host] t s s') ∧
        (s.dev.convLead = true → m.trans = none → transitionAllowed m.conv v = false → Runs (.convState t c n) s fun s' =>
          Answered c 0x0010 (stRes Sc.STATE) s s' ∧ Only [.host] t s s') ∧
        (s.dev.convLead = true → m.trans = none → transitionAllowed m.conv v = true → s.dev.boot.cfgBad = false → s.dev.pn P.mod_n_min ≠ 0 →
          s.dev.alone = true → Runs (.convState t c n) s fun s' =>
            s'.dev.mode.conv = m.conv ∧ s'.dev.mode.trans = some ⟨v, none, ca, true, false, true, none, 0⟩
              ∧ ⟨some v, none, ca, 0⟩ ∈ s'.dev.mode.units ∧ Made 2 none (.stateUnit ⟨some n, none, ca, 0⟩) s'
              ∧ Answered c 0x0010 done s s' ∧ Only [.mode, .par, .fab, .out, .host] t s s'))) ∧
    (∀ c n, s.dev.accepts c 0x0012 →
      (n < 3 → (s.dev.convLead = false ∨ m.conv ≠ .deEnergised) → Runs (.modeTest t c n) s fun s' =>
        Answered c 0x0012 (stRes Sc.STATE) s s' ∧ Only [.host] t s s') ∧
      (∀ x, testOf n = some x → s.dev.convLead = true → m.conv = .deEnergised → m.trans = none → s.dev.alone = true →
        Runs (.modeTest t c n) s fun s' => s'.dev.mode.test = m.test ∧ ⟨none, some x, ca, 0⟩ ∈ s'.dev.mode.units
          ∧ Made 2 none (.stateUnit ⟨none, some n, ca, 0⟩) s' ∧ Answered c 0x0012 done s s' ∧ Only [.mode, .fab, .out, .host] t s s')) ∧
    (∀ n v apply cause, convOf n = some v → s.dev.convLead = false → s.dev.cyc.k < apply → Runs (.stateUnitReceive t ⟨some n, none, apply, cause⟩) s fun s' =>
      s'.dev.mode = { m with units := (m.units.filter fun x => !(x.apply == apply && x.conv.isSome)) ++ [⟨some v, none, apply, cause⟩] }
        ∧ (v ≠ .faultBlocked → ∀ a ∈ s.dev.leadAddrs, ∃ x : AckMsg, Made 2 (some a) (.acknowledge x) s' ∧ x.addr = s.dev.addr ∧ x.members = s.dev.members
            ∧ x.power = powerCode m.power ∧ x.causes = m.causes ∧ x.apply = apply)
        ∧ Only [.mode, .fab, .out] t s s') ∧
    (∀ apply cause, s.dev.cyc.run = true → apply ≤ s.dev.cyc.k → m.units = [] → m.trans = none → m.conv = .charging ∨ m.conv = .blocked ∨ m.conv = .deblocked →
      Runs (.stateUnitReceive t ⟨some 4, none, apply, cause⟩) s fun s' =>
        s'.dev.mode = { m with conv := .faultBlocked } ∧ s'.dev.ctl = { s.dev.ctl with block := false } ∧ Out.irq 10 ∈ s'.dev.out
          ∧ (s.dev.convLead = true → Logged Ev.MODE_CONV_STATE 4 s s') ∧ Only [.mode, .ctl, .cyc, .log, .out] t s s') ∧
    (∀ n x apply cause, testOf n = some x → x ≠ m.test → s.dev.convLead = false → s.dev.cyc.run = true → apply ≤ s.dev.cyc.k → m.units = [] → m.trans = none →
      Runs (.stateUnitReceive t ⟨none, some n, apply, cause⟩) s fun s' =>
        s'.dev.mode.test = x ∧ s'.dev.mode.conv = m.conv ∧ bitN s'.dev.mode.causes 11 = false ∧ Raised Ev.MODE_TEST s s' ∧ s'.safe = s.safe) ∧
    (∀ a : AckMsg, Runs (.acknowledgementReceive t a) s fun s' =>
      (∀ x, s.dev.convLead = true → m.trans = some x → x.apply = a.apply →
        s'.dev.mode = { m with acks := m.acks.filter (fun b => b.addr != a.addr) ++ [a] } ∧ Only [.mode] t s s')
      ∧ (s.dev.convLead = false ∨ m.trans = none → Only [] t s s')) ∧
    (∀ apply cause, cause < 65536 → Runs (.cancelUnitReceive t apply cause) s fun s' =>
      s'.dev.mode.units = (m.units.filter fun u => u.apply != apply || u.conv == some .faultBlocked) ∧ s'.dev.mode.conv = m.conv
        ∧ (∀ x, m.trans = some x → s'.dev.mode.trans = if x.agreed = true ∧ x.apply = apply then none else some x) ∧ Only [.mode] t s s') ∧
    (∀ b : BlockMsg, b.bit < 13 → s.dev.convLead = true → m.reqs = [] →
      (m.trans = none → Runs (.blockRequestReceive t b) s fun s' => s'.dev.mode = { m with reqs := [(b.src, b.bit, b.kr)] } ∧ Only [.mode] t s s') ∧
      (∀ x, m.trans = some x → x.agreed = true → x.mine = true → Runs (.blockRequestReceive t b) s fun s' =>
        s'.dev.mode.trans = none ∧ s'.dev.mode.conv = m.conv ∧ (∀ u ∈ s'.dev.mode.units, u.apply = x.apply → u.conv = some .faultBlocked)
          ∧ Made 2 none (.cancel x.apply (2 ^ b.bit)) s' ∧ Raised Ev.MODE_CONV_CANCEL s s' ∧ Only [.mode, .log, .fab, .out] t s s') ∧
      (∀ x c, m.trans = some x → x.agreed = false → x.cmd = some c → Runs (.blockRequestReceive t b) s fun s' =>
        s'.dev.mode.trans = none ∧ s'.dev.mode.conv = m.conv ∧ Answered c (if x.test.isSome then 0x0012 else 0x0010) (stRes Sc.STATE) s s'
          ∧ Only [.mode, .ctl, .host] t s s')) ∧
    (s.dev.convLead = false → Runs (.blockRequestSend t) s fun s' =>
      (∀ b, b < 11 → bitN m.causes b = true → Raised Ev.MODE_BLOCK_REQ s s'
        ∧ ∀ a ∈ s.dev.leadAddrs, Made 2 (some a) (.blockReq ⟨s.dev.addr, b, m.causeAt.get 0 b⟩) s') ∧ Only [.log, .fab, .out] t s s') ∧
    (∀ x, s.dev.convLead = true → m.trans = some x → x.agreed = true → x.decided = false →
      ((s.dev.at t).failing x = none → Runs (.convStateDecide t) s fun s' =>
        s'.dev.mode = { m with trans := some { x with decided := true } } ∧ Only [.mode] t s s') ∧
      (∀ arg, (s.dev.at t).failing x = some arg → x.mine = true → Runs (.convStateDecide t) s fun s' =>
        s'.dev.mode.trans = none ∧ s'.dev.mode.conv = m.conv ∧ (∀ u ∈ s'.dev.mode.units, u.apply = x.apply → u.conv = some .faultBlocked)
          ∧ Raised Ev.MODE_CONV_CANCEL s s' ∧ Only [.mode, .log, .fab, .out] t s s')) ∧
    ∀ mask, mask < 32 → Runs (.selftestComplete t mask) s fun s' =>
      (m.test = .selftest → m.testDone = false → s'.dev.mode = { m with testDone := true, testPass := mask } ∧ Logged Ev.MODE_SELFTEST_DONE mask s s' ∧ Only [.mode, .log, .out] t s s')
      ∧ (m.test ≠ .selftest ∨ m.testDone = true → Only [] t s s')

/-- R484 to R487, R490, R491, R499: MODE_POWER chooses the deepest state that its latency allows and enters it at the next
boundary; wake sources lead from REST to IDLE and from IDLE to RUN; a poll of a regulator and a domain's difference to PD0
have their events and consequences; SYS_RESET is answered before it, ends the firmware state and keeps the safety unit, the
flash slots, SCRATCH and, when WARM, the TBC and the records. The model's choices in it: log entries 10, 33, 34, 35, 36, 37,
64 and 68. -/
def Obligations.PowerStatesDomainsAndResets : Prop :=
  ∀ (s : State) (t : Nat),
    let m := s.dev.mode
    (∀ c p lat, s.dev.accepts c 0x0011 →
      let enters := fun (w : Power) => Runs (.modePower t c p lat) s fun s' =>
        s'.dev.mode = { m with entry := some (w, c) } ∧ Answered c 0x0011 ⟨Sc.DONE, bytesLE 4 (powerCode w), []⟩ s s' ∧ Only [.mode, .host] t s s'
      let answers := fun (st : Nat) => Runs (.modePower t c p lat) s fun s' => Answered c 0x0011 (stRes st) s s' ∧ Only [.host] t s s'
      let others := s.dev.host.inflight.any fun f => !(f.gw == c.gw && f.qp == c.qp && f.tag == c.tag)
      (3 ≤ p → answers Sc.BAD_ARG) ∧
      let free := m.conv = .deEnergised ∧ m.test = .none ∧ s.dev.acq.armed = false ∧ s.dev.acq.current = none ∧ s.dev.acq.closing = []
      (p = 1 ∨ p = 2 → ¬ free → answers Sc.STATE) ∧
      (p = 1 ∨ p = 2 → free → others = true → answers Sc.BUSY) ∧
      (p = 0 → Runs (.modePower t c p lat) s fun s' => Answered c 0x0011 ⟨Sc.DONE, bytesLE 4 0, []⟩ s s' ∧ Only [.mode, .log, .out, .host] t s s') ∧
      (m.power = .run → free → others = false →
        (p = 1 → 2 ≤ lat → enters .idle) ∧
        (p = 2 → 2 ≤ lat → lat < 400 ∨ s.dev.pn P.sys_gateway = 1 → enters .idle) ∧
        (p = 2 → 400 ≤ lat → s.dev.pn P.sys_gateway ≠ 1 → enters .rest) ∧
        (p = 1 ∨ p = 2 → lat < 2 → Runs (.modePower t c p lat) s fun s' => s'.dev.mode = { m with entry := none }
          ∧ Answered c 0x0011 ⟨Sc.DONE, bytesLE 4 0, []⟩ s s' ∧ Only [.mode, .host] t s s')) ∧
      (p = 0 → m.power = .idle → m.waking = none → Runs (.modePower t c p lat) s fun s' =>
        s'.dev.mode = { m with entry := none, waking := some .run } ∧ Logged Ev.MODE_WAKE 8 s s'
          ∧ Answered c 0x0011 ⟨Sc.DONE, bytesLE 4 0, []⟩ s s' ∧ Only [.mode, .log, .out, .host] t s s')) ∧
    (m.waking = none →
      (m.power = .rest → Runs (.wakeWrite t) s fun s' => s'.dev.mode = { m with waking := some .idle } ∧ Logged Ev.MODE_WAKE 0 s s' ∧ Only [.mode, .log, .out] t s s') ∧
      (∀ src : WakeSource, src ≠ .modePower → src ≠ .fabricUnit → m.power = .rest → Runs (.wakeSource t src) s fun s' =>
        s'.dev.mode = { m with waking := some .idle } ∧ Logged Ev.MODE_WAKE (wakeCode src) s s' ∧ Only [.mode, .log, .out] t s s') ∧
      (m.power = .idle → Runs (.wakeSource t .fabricUnit) s fun s' =>
        s'.dev.mode = { m with waking := some .run } ∧ Logged Ev.MODE_WAKE 7 s s' ∧ Only [.mode, .log, .out] t s s') ∧
      (∀ t0, m.power = .rest → m.restAt = some t0 →
        (t0 + ticksOfS (s.dev.pn P.mode_rest_timer_s) ≤ s.now t → Runs (.restTimerExpiry t) s fun s' =>
          s'.dev.mode = { m with waking := some .idle } ∧ Logged Ev.MODE_WAKE 6 s s' ∧ Only [.mode, .log, .out] t s s') ∧
        (s.now t < t0 + ticksOfS (s.dev.pn P.mode_rest_timer_s) → Runs (.restTimerExpiry t) s (Only [] t s))) ∧
      Runs (.wakeComplete t) s (Only [] t s)) ∧
    (∀ p, m.waking = some p → m.power = .rest → Runs (.wakeComplete t) s fun s' =>
      s'.dev.mode.power = .idle ∧ s'.dev.mode.waking = none ∧ s'.dev.tim.running = true ∧ s'.dev.tbc = 0 ∧ Raised Ev.MODE_POWER s s' ∧ s'.safe = s.safe) ∧
    (m.waking = some .run → m.power = .idle → Runs (.wakeComplete t) s fun s' =>
      s'.dev.mode.power = .run ∧ s'.dev.mode.waking = none ∧ Logged Ev.MODE_POWER 0 s s' ∧ Only [.mode, .log, .out] t s s') ∧
    (∀ n, n < 8 →
      let r := s.dev.regulator n
      (s.dev.pni P.mode_pmb_addr n = 0 → ∀ a, Runs (.pmbusPoll t n a) s (Only [] t s)) ∧
      (s.dev.pni P.mode_pmb_addr n ≠ 0 → Runs (.pmbusPoll t n none) s fun s' =>
        (s'.dev.regulator n).missedRun = r.missedRun + 1 ∧ (s'.dev.regulator n).missed = r.missed + 1 ∧ (s'.dev.regulator n).answering = false
          ∧ (r.missedRun = 2 → r.lost = false → Logged Ev.MODE_PMB_LOST n s s')
          ∧ (2 ≤ r.missedRun → bitN (s.dev.pn P.mode_pmb_crit) n = true → bitN s'.dev.mode.causes 9 = true) ∧ Only [.mode, .log, .out] t s s') ∧
      (∀ a : PmbRead, s.dev.pni P.mode_pmb_addr n ≠ 0 → Runs (.pmbusPoll t n (some a)) s fun s' =>
        (s'.dev.regulator n).status = a.status ∧ (s'.dev.regulator n).vout = a.vout ∧ (s'.dev.regulator n).missedRun = 0 ∧ (s'.dev.regulator n).lost = false
          ∧ (pmbFault a.status = true → r.faulted = false → Raised Ev.MODE_PMB_FAULT s s' ∧ Out.pmbClear n ∈ s'.dev.out)
          ∧ (pmbWarn a.status = true → r.warned = false → Raised Ev.MODE_PMB_WARN s s')
          ∧ (pmbFault a.status = true → bitN (s.dev.pn P.mode_pmb_crit) n = true → bitN s'.dev.mode.causes 9 = true) ∧ Only [.mode, .log, .out] t s s')) ∧
    (∀ n (diff : Int), 1 ≤ n → n < 12 →
      let x := s.dev.domain n
      (x.st ≠ .on → Runs (.domainFault t n diff) s (Only [] t s)) ∧
      (x.st = .on → diff.natAbs ≤ 60 → Runs (.domainFault t n diff) s fun s' =>
        s'.dev.domain n = { x with diff := diff, maxDiff := if x.maxDiff.natAbs < diff.natAbs then diff else x.maxDiff } ∧ Only [.mode] t s s') ∧
      (x.st = .on → 60 < diff.natAbs → x.clamps = false →
        (n ≠ 1 ∨ s.safe.powered = true → Runs (.domainFault t n diff) s fun s' =>
          (s'.dev.domain n).clamps = true ∧ (s'.dev.domain n).faulty = true ∧ Raised Ev.DOMAIN_VDIFF s s'
            ∧ (n = 1 → ¬ s.safe.lasting → s'.safe.Faulted 0x0C 0) ∧ (n ≠ 1 → s'.safe = s.safe)
            ∧ (n = 2 → s'.dev.flt.stopped = true ∧ (s.dev.flt.stopped = false → s'.dev.flt.cause = 7))
            ∧ (n = 5 ∨ n = 6 ∨ n = 7 ∨ n = 11 → s'.dev.cyc.segFault = true ∧ bitN s'.dev.mode.causes 10 = true))) ∧
      (x.clamps = true → x.st = .on → Runs (.domainRestore t n) s fun s' =>
        (s'.dev.domain n).clamps = false ∧ (s'.dev.domain n).diff = 0 ∧ (s'.dev.domain n).faulty = (x.faulty && !([3, 4, 8, 9, 10].contains n))
          ∧ Raised Ev.MODE_DOMAIN_RESTORED s s' ∧ s'.safe = s.safe) ∧
      (x.clamps = false → Runs (.domainRestore t n) s (Only [] t s))) ∧
    ∀ (c : CmdRef) (full : Bool) (b : BootInputs), b.straps.length = 8 → s.dev.accepts c 0x0013 → Runs (.sysReset t c full b) s fun s' =>
      s'.dev.boot.operational = false ∧ s'.dev.par.pending = [] ∧ s'.dev.par.lock = false ∧ s'.dev.host.scratch = s.dev.host.scratch
        ∧ (s.dev.boot.vin = true → s.dev.boot.resetL = false → b.ioRails = true → b.refclk = true → s'.dev.boot.count = s.dev.boot.count + 1)
        ∧ (c.gw = none → (s.dev.qp c.qp).session = none → (s.dev.qp c.qp).drop = false →
            Out.dma ((s.dev.qp c.qp).cqBase.toNat + 32 * (s.dev.qp c.qp).cqTail)
              (compBytes s.dev.addr c.qp c.tag (s.dev.qp c.qp).sqHead (s.dev.qp c.qp).phase (stRes Sc.DONE) 0) ∈ s'.dev.out)
        ∧ (full = false → s'.dev.tim.tbc0 = s.dev.tim.tbc0 ∧ s'.dev.tim.running = s.dev.tim.running ∧ s'.dev.acq.records = s.dev.acq.records)
        ∧ (full = true → s'.dev.tim.running = false ∧ s'.dev.acq.records = [])
        ∧ s'.flash.slots = s.flash.slots ∧ s'.safe = s.safe ∧ s'.pending = s.pending


/-! ## The host interface (chapters 12 and 16) -/

/-- R383, R390 to R394, R396, R397, R399, R402: descriptors are fetched in the queue pair's turn and start, are answered after a
failed check, or are held for a general slot; completions are written at the CQ tail with the phase, or are discarded and
counted; vectors follow IRQ; doorbells, enabling and the PCIe resets act on their queue pair alone. The model's choices in
it: log entries 8, 10 and 17. -/
def Obligations.QueuePairsFetchAndComplete : Prop :=
  ∀ (s : State) (t n : Nat), n < 8 →
    let q := s.dev.qp n
    let h := s.dev.host
    let o := (s.at t).dev.out
    (∀ (x : Desc) (ok : Bool), s.dev.serves = true → s.dev.fetchTurn = some n → h.inflight.length < 256 → x.dest = s.dev.addr ∨ h.tunnelled.length < 1024 →
      let f := ({ gw := none, qp := n, tag := x.tag, opcode := x.opcode, fenced := x.fence, args := x.args, din := x.din, buf := x.bufAddr } : Inflight)
      let routed := (s.at t).dev.routePort x.dest ≠ none
      let taken := fun (s' : State) => (s'.dev.qp n).sqHead = (q.sqHead + 1) % q.sqSize
      let free := (∀ g ∈ h.inflight, ¬ (g.gw = none ∧ g.qp = n ∧ g.tag = x.tag)) ∧ (∀ g ∈ h.tunnelled, ¬ (g.qp = n ∧ g.tag = x.tag))
      let refused := fun (st : Nat) => Runs (.descriptorFetch t n x true) s fun s' =>
        taken s' ∧ s'.dev.host.inflight = h.inflight ++ [{ f with result := some (stRes st) }] ∧ s'.dev.host.tunnelled = h.tunnelled ∧ Only [.host] t s s'
      (ok = false → Runs (.descriptorFetch t n x ok) s fun s' => (s'.dev.qp n).error = true ∧ (s'.dev.qp n).errCause = 0 ∧ Logged Ev.MBX_QP_ERROR n s s'
        ∧ Out.irq 9 ∈ s'.dev.out ∧ Only [.host, .log, .out] t s s') ∧
      (s.dev.slotFor x.opcode = false → Runs (.descriptorFetch t n x true) s fun s' =>
        taken s' ∧ (s'.dev.qp n).held = some (x, q.privilege) ∧ s'.dev.host.inflight = h.inflight ∧ Only [.host] t s s') ∧
      (s.dev.slotFor x.opcode = true →
        ((∃ g ∈ h.inflight, g.gw = none ∧ g.qp = n ∧ g.tag = x.tag) → refused Sc.TAG_IN_USE) ∧
        (free → opRow? x.opcode = none → refused Sc.BAD_OPCODE) ∧
        (∀ r, free → opRow? x.opcode = some r →
          (q.privilege < r.level → refused Sc.DENIED) ∧
          (r.level ≤ q.privilege → x.dest ≠ s.dev.addr → s.dev.pv P.sys_gateway ≠ 1 ∨ ¬ routed → refused Sc.NO_ROUTE) ∧
          (r.level ≤ q.privilege → x.dest = s.dev.addr → x.rsvd ≠ 0 ∨ 16777216 < x.bufLen → refused Sc.BAD_ARG) ∧
          (r.level ≤ q.privilege → x.dest ≠ s.dev.addr → s.dev.pv P.sys_gateway = 1 → routed → bulkCommand x.opcode = false → x.dout = true →
            65456 < x.bufLen → refused Sc.BAD_ARG) ∧
          (r.level ≤ q.privilege → x.rsvd = 0 → x.bufLen ≤ 16777216 → x.dest = s.dev.addr → Runs (.descriptorFetch t n x true) s fun s' =>
            taken s' ∧ s'.dev.host.inflight = h.inflight ++ [f] ∧ Only [.host] t s s') ∧
          (r.level ≤ q.privilege → x.rsvd = 0 → x.bufLen ≤ 65456 → x.dest ≠ s.dev.addr → s.dev.pv P.sys_gateway = 1 → routed → Runs (.descriptorFetch t n x true) s fun s' =>
            taken s' ∧ s'.dev.host.tunnelled = h.tunnelled ++ [{ qp := n, tag := x.tag, dest := x.dest, opcode := x.opcode, din := x.din, buf := x.bufAddr, due := s.now t + ticksOfNs (s.dev.boundNs x) + ticksOfMs (2 + s.dev.pn P.sys_tunnel_to_ms) }]
              ∧ s'.dev.host.inflight = h.inflight ∧ Only [.host, .fab, .out] t s s')))) ∧
    (∀ x ok, s.dev.fetchTurn ≠ some n → Runs (.descriptorFetch t n x ok) s (Only [] t s)) ∧
    (s.dev.boot.pwrfail = true → ∀ gw ok, Runs (.completionWrite t gw n ok) s (Only [] t s)) ∧
    (∀ f r fs, s.dev.boot.pwrfail = false → (∀ i, i < 8 → (s.dev.qp i).held = none) → h.tunHeld = [] → takeReady none n h.inflight = some (f, r, fs) →
      let data := if f.din then r.data else []
      let bytes := compBytes s.dev.addr n f.tag q.sqHead q.phase r data.length
      (q.session = none → q.drop = false → q.cqFree = true → Runs (.completionWrite t none n true) s fun s' =>
        s'.dev.out = (if data = [] then o else o ++ [.dma f.buf data]) ++ [.dma (q.cqBase.toNat + 32 * q.cqTail) bytes] ∧ s'.dev.host.inflight = fs
          ∧ (s'.dev.qp n).cqTail = (q.cqTail + 1) % q.cqSize ∧ (s'.dev.qp n).phase = (if (q.cqTail + 1) % q.cqSize = 0 then !q.phase else q.phase)
          ∧ (s'.dev.qp n).unsig = q.unsig + 1 ∧ (∀ i, i ≠ n → s'.dev.qp i = s.dev.qp i) ∧ Only [.host, .out] t s s') ∧
      (q.session = none → q.drop = false → q.cqFree = false → ∀ ok, Runs (.completionWrite t none n ok) s (Only [] t s)) ∧
      (∀ k ok, q.session = some k → q.drop = false → Runs (.completionWrite t none n ok) s fun s' =>
        s'.dev.out = o ++ [.sessFrame k (frameBytes 2 (bytes ++ data))] ∧ s'.dev.host.inflight = fs ∧ Only [.host, .out] t s s') ∧
      (∀ ok, q.drop = true → Runs (.completionWrite t none n ok) s fun s' =>
        (s'.dev.qp n).discarded = min 255 (q.discarded + 1) ∧ s'.dev.host.inflight = fs ∧ Only [.host] t s s')) ∧
    (∀ g f r fs ok, s.dev.boot.pwrfail = false → (∀ i, i < 8 → (s.dev.qp i).held = none) → h.tunHeld = [] → takeReady (some g) n h.inflight = some (f, r, fs) →
      Runs (.completionWrite t (some g) n ok) s fun s' => s'.dev.host = { h with inflight := fs } ∧ Only [.host, .fab, .out] t s s') ∧
    (let irqs := Runs (.interruptSignal t n) s fun s' => s'.dev.out = o ++ [.irq q.vector] ∧ s'.dev.qp n = { q with unsig := 0 } ∧ Only [.host, .out] t s s'
      let k := fieldN q.irq.toNat 0 8
      let us := fieldN q.irq.toNat 8 16
      (0 < q.unsig → k ≤ q.unsig → irqs) ∧ (0 < q.unsig → us ≠ 0 → q.unsigAt + ticksOfUs us ≤ s.now t → irqs) ∧
      (q.unsig = 0 ∨ (q.unsig < k ∧ (us = 0 ∨ s.now t < q.unsigAt + ticksOfUs us)) → Runs (.interruptSignal t n) s (Only [] t s))) ∧
    Runs (.pcieReset t) s (fun s' => s'.dev.qp n = (if q.transport = 1 then { drop := !s.dev.qpIdle n || q.held.isSome, held := q.held } else q) ∧ s'.dev.host.inflight = h.inflight
      ∧ s'.dev.host.sessions = h.sessions ∧ s'.dev.host.msix = [] ∧ Only [.host] t s s') ∧
    (∀ v : Word, s.dev.mode.power = .run →
      let i := v.toNat % 4096
      (i < q.sqSize → Runs (.sqTailWrite t n v) s fun s' => s'.dev.qp n = { q with sqTail := i } ∧ (∀ j, j ≠ n → s'.dev.qp j = s.dev.qp j) ∧ Only [.host] t s s') ∧
      (q.sqSize ≤ i → Runs (.sqTailWrite t n v) s fun s' => s'.dev.qp n = { q with sqTail := i, error := true, errCause := 1 } ∧ Logged Ev.MBX_QP_ERROR (n + 8) s s'
        ∧ Out.irq 9 ∈ s'.dev.out ∧ Only [.host, .log, .out] t s s') ∧
      (i < q.cqSize → Runs (.cqHeadWrite t n v) s fun s' => s'.dev.qp n = { q with cqHead := i } ∧ (∀ j, j ≠ n → s'.dev.qp j = s.dev.qp j) ∧ Only [.host] t s s') ∧
      (q.cqSize ≤ i → Runs (.cqHeadWrite t n v) s fun s' => s'.dev.qp n = { q with cqHead := i, error := true, errCause := 1 } ∧ Logged Ev.MBX_QP_ERROR (n + 8) s s'
        ∧ Out.irq 9 ∈ s'.dev.out ∧ Only [.host, .log, .out] t s s')) ∧
    ∀ v : Word,
      (q.enabled = false → s.dev.qpIdle n = true → Runs (.qpEnable t n v) s fun s' =>
        s'.dev.qp n = { q with cfg := (v ||| 1#32) &&& 0x7FF#32, sqHead := 0, sqTail := 0, cqHead := 0, cqTail := 0, phase := true, error := false,
                               errCause := 0, unsig := 0 } ∧ Only [.host] t s s') ∧
      (s.dev.qpIdle n = false → Runs (.qpEnable t n v) s fun s' => (s'.dev.qp n).transport = q.transport ∧ (s'.dev.qp n).ceiling = q.ceiling ∧ Only [.host] t s s') ∧
      Runs (.qpDisable t n v) s (fun s' => (s'.dev.qp n).enabled = false ∧ (s'.dev.qp n).sqHead = q.sqHead ∧ s'.dev.host.inflight = h.inflight ∧ Only [.host] t s s')

/-- R384 to R389: a handshake binds its session to the lowest free Ethernet queue pair or is refused FULL; frames of a session
start commands, are answered, or close it; a closed session frees its queue pair once idle; tunnelled commands run at their
destination and are completed by the reply or by the timeout, a later reply being counted. The model's choices in it: log
entries 9, 10, 87, 88 and 136. -/
def Obligations.SessionsAndTunnelCarryCommands : Prop :=
  ∀ (s : State) (t : Nat),
    let h := s.dev.host
    let fits := fun (n : Nat) => (s.dev.qp n).enabled && (s.dev.qp n).transport == 2 && (s.dev.qp n).session.isNone && !(s.dev.qp n).drop
    (∀ port1 (role : Level) remote, role < 3 → remote < 65536 → s.dev.sec.alarm < 2 → bitN (s.dev.pn P.sys_mbx_tls_en) (bit01 port1) = true →
      (∀ n k, n < 8 → fits n = true → (∀ i, i < n → fits i = false) → k < 4 → h.sessions.find k = none → (∀ j, j < k → h.sessions.find j ≠ none) →
        Runs (.tlsHandshakeDone t port1 role remote) s fun s' =>
          s'.dev.host.sessions.find k = some ⟨n, port1, role, remote, s.now t, s.dev.pn P.sys_mbx_idle_s⟩ ∧ s'.dev.qp n = { s.dev.qp n with session := some k, level := role }
            ∧ (∀ i, i ≠ n → s'.dev.qp i = s.dev.qp i) ∧ Logged Ev.MBX_SESSION k s s' ∧ Out.irq 9 ∈ s'.dev.out ∧ Only [.host, .log, .out] t s s') ∧
      ((∀ n, n < 8 → fits n = false) ∨ (∀ k, k < 4 → h.sessions.find k ≠ none) → Runs (.tlsHandshakeDone t port1 role remote) s fun s' =>
        s'.dev.host = { h with refusedFull := (h.refusedFull + 1) % 256 } ∧ Logged Ev.MBX_SESSION 512 s s' ∧ Out.sessRefused port1 ∈ s'.dev.out ∧ Only [.host, .log, .out] t s s')) ∧
    Runs (.tlsHandshakeFail t) s (fun s' => s'.dev.host = { h with tlsFails := (h.tlsFails + 1) % 65536 } ∧ Logged Ev.MBX_TLS_FAIL 0 s s' ∧ Only [.host, .log, .out] t s s') ∧
    (∀ k ss, k < 4 → h.sessions.find k = some ss →
      let touched := fun (s' : State) => s'.dev.host.sessions = h.sessions.set k { ss with lastRecord := s.now t }
      let q := s.dev.qp ss.qp
      let closes := fun (s' : State) => Out.sessClose k ∈ s'.dev.out ∧ Out.irq 9 ∈ s'.dev.out
        ∧ (s.dev.qpIdle ss.qp = true → (s'.dev.qp ss.qp).session = none ∧ (s'.dev.qp ss.qp).drop = false)
        ∧ (s.dev.qpIdle ss.qp = false → (s'.dev.qp ss.qp).drop = true) ∧ s'.dev.host.inflight = h.inflight ∧ Only [.host, .log, .out] t s s'
      Runs (.sessionFrameReceive t k .pong) s (fun s' => touched s' ∧ Only [.host] t s s') ∧
      (∀ x : Desc, s.dev.serves = true → q.enabled = true → q.error = false → q.held = none → h.inflight.length < 256 → x.dest = s.dev.addr →
        ((s.dev.inflightOf ss.qp).length < q.sqSize → s.dev.slotFor x.opcode = true → (∀ g ∈ h.inflight, ¬ (g.gw = none ∧ g.qp = ss.qp ∧ g.tag = x.tag)) →
          (∀ g ∈ h.tunnelled, ¬ (g.qp = ss.qp ∧ g.tag = x.tag)) → (∃ r, opRow? x.opcode = some r ∧ r.level ≤ q.privilege) → x.rsvd = 0 → x.bufLen ≤ 16777216 →
          Runs (.sessionFrameReceive t k (.desc x true)) s fun s' =>
            s'.dev.host.inflight = h.inflight ++ [{ gw := none, qp := ss.qp, tag := x.tag, opcode := x.opcode, fenced := x.fence, args := x.args, din := x.din, buf := x.bufAddr }] ∧ touched s' ∧ Only [.host] t s s') ∧
        (q.sqSize ≤ (s.dev.inflightOf ss.qp).length → Runs (.sessionFrameReceive t k (.desc x true)) s fun s' =>
          s'.dev.host.inflight = h.inflight ∧ touched s' ∧ Only [.host] t s s')) ∧
      (∀ f : SessFrame, (∃ x, f = .desc x false) ∨ (∃ y, f = .other y) → Runs (.sessionFrameReceive t k f) s fun s' =>
        (s'.dev.qp ss.qp).error = true ∧ (s'.dev.qp ss.qp).errCause = 2 ∧ Raised Ev.MBX_QP_ERROR s s' ∧ Raised Ev.MBX_SESSION s s' ∧ closes s') ∧
      Runs (.pingReceive t k) s (fun s' => touched s' ∧ s'.dev.out = (s.at t).dev.out ++ [.sessFrame k (frameBytes 5 [])] ∧ Only [.host, .out] t s s') ∧
      (max ss.lastRecord s.dev.log.framedAt + ticksOfS ss.idle ≤ s.now t → Runs (.sessionIdleTimeout t k) s fun s' => Logged Ev.MBX_SESSION (k + 256) s s' ∧ closes s') ∧
      (s.now t < max ss.lastRecord s.dev.log.framedAt + ticksOfS ss.idle → Runs (.sessionIdleTimeout t k) s (Only [] t s)) ∧
      Runs (.sessionClose t k) s fun s' => Logged Ev.MBX_SESSION (k + 256) s s' ∧ closes s') ∧
    (∀ gw qp (level : Level) (x : Desc), gw < 4096 → qp < 8 → level < 3 → s.dev.serves = true →
      let f := ({ gw := some gw, qp := qp, tag := x.tag, opcode := x.opcode, args := x.args, din := x.din } : Inflight)
      let becomes := fun (g : Inflight) => Runs (.tunnelCommandReceive t gw qp level x) s fun s' => s'.dev.host = { h with inflight := h.inflight ++ [g] } ∧ Only [.host] t s s'
      (s.dev.slotFor x.opcode = false → Runs (.tunnelCommandReceive t gw qp level x) s fun s' =>
        s'.dev.host = { h with tunHeld := h.tunHeld ++ [(gw, qp, level, x)] } ∧ Only [.host] t s s') ∧
      (s.dev.slotFor x.opcode = true → (∃ g ∈ h.inflight, g.gw = some gw ∧ g.qp = qp ∧ g.tag = x.tag) → becomes { f with result := some (stRes Sc.TAG_IN_USE) }) ∧
      (∀ r, s.dev.slotFor x.opcode = true → (∀ g ∈ h.inflight, ¬ (g.gw = some gw ∧ g.qp = qp ∧ g.tag = x.tag)) → opRow? x.opcode = some r →
        (level < r.level → becomes { f with result := some (stRes Sc.DENIED) }) ∧
        (r.level ≤ level → x.rsvd = 0 → x.bufLen ≤ 16777216 → x.dest = s.dev.addr → becomes f))) ∧
    ∀ qp tag, qp < 8 →
      (∀ pre f fs, h.tunnelled = pre ++ f :: fs → (∀ g ∈ pre, ¬ (g.qp = qp ∧ g.tag = tag ∧ g.result = none)) → f.qp = qp → f.tag = tag → f.result = none →
        (∀ dev r, dev < 4096 → Runs (.tunnelReplyReceive t qp tag dev r) s fun s' =>
          s'.dev.host = { h with tunnelled := pre ++ { f with result := some (dev, r) } :: fs } ∧ Only [.host] t s s') ∧
        (s.now t < f.due → Runs (.tunnelTimeout t qp tag) s (Only [] t s)) ∧
        (f.due ≤ s.now t → (∀ g ∈ fs, ¬ (g.qp = qp ∧ g.tag = tag ∧ g.result = none)) → Runs (.tunnelTimeout t qp tag) s fun s' =>
          s'.dev.host = { h with tunnelled := pre ++ { f with result := some (s.dev.addr, stRes Sc.TIMEOUT) } :: fs, tunTimeouts := h.tunTimeouts + 1 }
            ∧ Logged Ev.MBX_TUNNEL_TIMEOUT tag s s' ∧ Only [.host, .log, .out] t s s')) ∧
      ((∀ g ∈ h.tunnelled, ¬ (g.qp = qp ∧ g.tag = tag ∧ g.result = none)) →
        (∀ dev r, dev < 4096 → Runs (.tunnelReplyReceive t qp tag dev r) s fun s' => s'.dev.host = { h with lateReplies := h.lateReplies + 1 } ∧ Only [.host] t s s') ∧
        Runs (.tunnelTimeout t qp tag) s (Only [] t s))


/-- R185, R382, R485, R494 to R498, R500, R501, R504, R511: a read answers the register, or its latched half, and latches what
belongs to it; an invalid access reads as all ones, changes nothing and is counted; SCRATCH and the RWL fields take a write,
the latter not under the lock; the open debug window keeps what is written at an internal address (log entry 14). The model's
choices in it: log entries 10, 13, 14, 70 and 71. -/
def Obligations.HostReadsAndWritesRegisters : Prop :=
  ∀ (s : State) (t : Nat),
    let u := s.at t
    let h := s.dev.host
    let counted := fun (addr : Nat) (s' : State) =>
      s'.dev.host.err = satInc h.err ∧ s'.dev.host.errAddr = BitVec.ofNat 32 addr ∧ s'.dev.host.scratch = h.scratch ∧ s'.dev.host.qps = h.qps
        ∧ (s.dev.log.last.find (Ev.MBX_BAR_ACCESS * 65536) = none → Logged Ev.MBX_BAR_ACCESS 0 s s')
        ∧ (∀ t0, s.dev.log.last.find (Ev.MBX_BAR_ACCESS * 65536) = some t0 → s.now t < t0 + ticksOfS 1 → s'.dev.log.buffer = s.dev.log.buffer)
        ∧ Only [.host, .log, .out] t s s'
    (∀ (i : Instr) (addr : Nat), (i = .tbcLoRead t ∧ addr = 0x30000) ∨ (∃ ch, ch < 24 ∧ i = .chresLoRead t ch ∧ addr = 0x60100 + 8 * ch)
        ∨ (∃ b : Bool, i = .healthRegisterLatchRead t b ∧ addr = if b then 0x50020 else 0x50000) ∨ i = .pairLoRead t addr ∨ i = .rcFieldRead t addr →
      (∀ b o, blockOf addr = some (b, o) → addr % 4 = 0 → (b = .window → s.dev.sec.window = true) →
        (s.dev.mode.power = .rest → blockRests b = true → Runs i s fun s' => s'.dev.host = { h with readout := 0xFFFFFFFF#32 } ∧ Only [.host] t s s') ∧
        (s.dev.mode.power ≠ .rest ∨ blockRests b = false → (∀ x ∈ latchedBy b o, u.reg b x ≠ none) →
          (∀ v, h.latched.find addr = some v → Runs i s fun s' => s'.dev.host.readout = v ∧ Only [.host, .sar] t s s') ∧
          (∀ v, h.latched.find addr = none → u.reg b o = some v → Runs i s fun s' =>
            s'.dev.host.readout = v ∧ (∀ x ∈ latchedBy b o, s'.dev.host.latched.find (addr - o + x) = u.reg b x)
              ∧ (addr = 0x10008 → s'.dev.host.err = 0) ∧ (b ≠ .sar → Only [.host] t s s') ∧ (b = .sar → Only [.host, .sar] t s s'))) ∧
        (s.dev.mode.power ≠ .rest ∨ blockRests b = false → h.latched.find addr = none → u.reg b o = none → Runs i s fun s' =>
          s'.dev.host.readout &&& ~~~(BitVec.ofNat 32 (openBits b o)) = 0#32 ∧ Only [.host, .sar, .openIx] t s s')) ∧
      (blockOf addr = none ∨ addr % 4 ≠ 0 ∨ (addr / 0x1000000 = 1 ∧ s.dev.sec.window = false) → Runs i s fun s' =>
        s'.dev.host.readout = 0xFFFFFFFF#32 ∧ counted addr s')) ∧
    (∀ addr, Runs (.barInvalidAccess t addr true) s (fun s' => s'.dev.host.readout = h.readout ∧ counted addr s')
      ∧ Runs (.barInvalidAccess t addr false) s (fun s' => s'.dev.host.readout = 0xFFFFFFFF#32 ∧ counted addr s')) ∧
    (∀ v : Word,
      (∀ i, i < 8 → Runs (.registerWrite t (0x60 + 4 * i) v) s fun s' => s'.dev.host = { h with scratch := h.scratch.set i v } ∧ Only [.host] t s s') ∧
      (s.dev.par.lock = false → Runs (.registerWrite t 0x2C v) s (fun s' => s'.dev.host = { h with evtFilter := v.toNat % 4 } ∧ Only [.host] t s s')
        ∧ Runs (.registerWrite t 0x30 v) s (fun s' => s'.dev.host = { h with hostTag := v } ∧ Only [.host] t s s')) ∧
      (s.dev.par.lock = true → ∀ a, a = 0x2C ∨ a = 0x30 → Runs (.registerWrite t a v) s fun s' =>
        s'.dev.host = { h with err := satInc h.err, errAddr := BitVec.ofNat 32 a } ∧ Only [.host] t s s') ∧
      (∀ a b o, blockOf a = some (b, o) → b ≠ .sys → b ≠ .mbx → b ≠ .window → Runs (.registerWrite t a v) s (counted a)) ∧
      (∀ a, blockOf a = none → Runs (.registerWrite t a v) s (counted a)) ∧
      (∀ a o, blockOf a = some (.window, o) → (s.dev.sec.window = false → Runs (.registerWrite t a v) s (counted a))
        ∧ (s.dev.sec.window = true → a % 4 ≠ 0 → Runs (.registerWrite t a v) s (counted a))
        ∧ (s.dev.sec.window = true → a % 4 = 0 → Runs (.registerWrite t a v) s fun s' =>
            s'.dev.sec = { s.dev.sec with dbgMem := s.dev.sec.dbgMem.set (s.dev.dbgAddr o) v } ∧ Only [.sec] t s s')) ∧
      (∀ i : Instr, i = .evtAckWrite t v ∨ i = .registerWrite t 0x10018 v → Runs i s fun s' => s'.dev.log = { s.dev.log with evtAck := v }
        ∧ ((∀ e ∈ s.dev.log.ring, ¬ (v.toNat < e.seq.toNat ∧ h.evtFilter ≤ e.sev ∧ e.cont = none)) → Only [.log] t s s')
        ∧ ((∃ e ∈ s.dev.log.ring, v.toNat < e.seq.toNat ∧ h.evtFilter ≤ e.sev ∧ e.cont = none) → s'.dev.out = (s.at t).dev.out ++ [.irq 8] ∧ Only [.log, .out] t s s'))) ∧
    ∀ c : CmdRef,
      (s.dev.accepts c 0x0001 → Runs (.nop t c) s fun s' => Answered c 0x0001 (stRes Sc.DONE) s s' ∧ Only [.host] t s s') ∧
      (s.dev.accepts c 0x0002 → Runs (.devInfo t c) s fun s' => Answered c 0x0002 ⟨Sc.DONE, bytesLE 4 0x21489600 ++ bytesLE 4 s.dev.boot.version.toNat
        ++ bytesLE 2 s.dev.addr ++ [BitVec.ofNat 8 s.dev.twinCode, BitVec.ofNat 8 s.dev.roles], []⟩ s s' ∧ Only [.host] t s s') ∧
      (∀ array first count, s.dev.accepts c 0x0005 → healthCount array = 0 ∨ healthCount array < first + count → Runs (.healthRead t c array first count) s fun s' =>
        Answered c 0x0005 (stRes Sc.RANGE) s s' ∧ Only [.host] t s s') ∧
      (∀ first count, s.dev.accepts c 0x0005 →
        (first + count ≤ 48 → Runs (.healthRead t c 0 first count) s fun s' =>
          Answered c 0x0005 ⟨Sc.DONE, [], (List.range count).flatMap fun i => (s.dev.at t).cellHealth (first + i)⟩ s s' ∧ Only [.host] t s s') ∧
        (first + count ≤ 3 → Runs (.healthRead t c 1 first count) s fun s' =>
          Answered c 0x0005 ⟨Sc.DONE, [], (List.range count).flatMap fun i => (s.dev.at t).armHealth (first + i)⟩ s s' ∧ Only [.host] t s s') ∧
        (first + count ≤ 2 → Runs (.healthRead t c 4 first count) s fun s' =>
          Answered c 0x0005 ⟨Sc.DONE, [], (List.range count).flatMap fun i => if first + i = 0 then healthBytes s.dev.twin.own else s.dev.twinBytes⟩ s s'
            ∧ Only [.host] t s s'))

/-! ## Parameters (chapter 12) -/

/-- R405: PARAM_SET makes its checks in their order, completes with the status of the first that fails and then writes nothing;
else its elements enter the pending set, over what they held there, and no other element changes. -/
def Obligations.ParamSetChecksBeforeItWrites : Prop :=
  ∀ (s : State) (t : Nat) (c : CmdRef),
    let p := s.dev.par
    let replies := fun (op : Nat) (r : CmdResult) (s' : State) => Answered c op r s s' ∧ Only [.host] t s s'
    (∀ id, s.dev.accepts c 0x0021 → paramDef? id = none → ∀ index count type values,
      Runs (.paramSet t c id index count type values) s (replies 0x0021 (stRes Sc.UNKNOWN_PARAM))) ∧
    (∀ id x index count type values, s.dev.accepts c 0x0021 → paramDef? id = some x → 1 ≤ count → count ≤ 4096 →
      (x.count < index + count → Runs (.paramSet t c id index count type values) s (replies 0x0021 ⟨Sc.RANGE, wordsBytes [max index x.count], []⟩)) ∧
      (index + count ≤ x.count →
        let el := fun (j : Nat) => x.ty.ofBytes ((values.drop (j * x.ty.bytes)).take x.ty.bytes)
        (type ≠ x.ty.code → Runs (.paramSet t c id index count type values) s (replies 0x0021 (stRes Sc.BAD_ARG))) ∧
        (type = x.ty.code → count * x.ty.bytes ≤ values.length →
          (isSafety id = true → Runs (.paramSet t c id index count type values) s (replies 0x0021 (stRes Sc.DENIED))) ∧
          (isSafety id = false → p.lock = true → lockExempt id = false → Runs (.paramSet t c id index count type values) s (replies 0x0021 (stRes Sc.LOCKED))) ∧
          (isSafety id = false → p.lock = false ∨ lockExempt id = true →
            (∀ j, j < count → x.range.has (index + j) (el j) = false → (∀ i, i < j → x.range.has (index + i) (el i) = true) →
              Runs (.paramSet t c id index count type values) s (replies 0x0021 ⟨Sc.RANGE, wordsBytes [index + j], []⟩)) ∧
            ((∀ j, j < count → x.range.has (index + j) (el j) = true) → Runs (.paramSet t c id index count type values) s fun s' =>
              (∀ j, j < count → s'.dev.par.pending.find (pkey id (index + j)) = some (el j))
                ∧ (∀ k, (∀ j, j < count → k ≠ pkey id (index + j)) → s'.dev.par.pending.find k = p.pending.find k)
                ∧ s'.dev.par = { p with pending := s'.dev.par.pending } ∧ Answered c 0x0021 (stRes Sc.DONE) s s' ∧ Only [.par, .host] t s s')))))

/-- R404, R406 to R408: PARAM_GET answers the elements of the source named, PARAM_COMMIT stores the whole set over the older copy
with generation g + 1 (the calibration coefficients in both, R180) and clears the snapshot, or changes nothing and names the
first offender; PARAM_DISCARD, which like it answers BUSY while a commit runs (Table 12-9), PARAM_LOCK and PARAM_LIST. The
model's choice in it: log entry 86. -/
def Obligations.ParametersArePendingThenCommitted : Prop :=
  ∀ (s : State) (t : Nat) (c : CmdRef),
    let p := s.dev.par
    let replies := fun (op : Nat) (r : CmdResult) (s' : State) => Answered c op r s s' ∧ Only [.host] t s s'
    (∀ id, s.dev.accepts c 0x0020 → paramDef? id = none → ∀ index count type source,
      Runs (.paramGet t c id index count type source) s (replies 0x0020 (stRes Sc.UNKNOWN_PARAM))) ∧
    (∀ id x index count type source, s.dev.accepts c 0x0020 → paramDef? id = some x →
      (count = 0 ∨ 4096 < count ∨ x.count < index + count → Runs (.paramGet t c id index count type source) s (replies 0x0020 (stRes Sc.RANGE))) ∧
      (1 ≤ count → count ≤ 4096 → index + count ≤ x.count →
        (type ≠ x.ty.code → Runs (.paramGet t c id index count type source) s (replies 0x0020 (stRes Sc.BAD_ARG))) ∧
        (type = x.ty.code → isSafety id = false → source ≤ 2 → (p.pending.map (·.1)).Nodup →
          let dflt := fun (o : Option Int) (i : Nat) => match o with
            | some v => v
            | none => s.dev.paramDefault ((s.safe.cfgSealed.map sealCode).getD 0) x i
          let val := fun (i : Nat) => match source with
            | 0 => dflt (p.active.find (pkey x.id i)) i
            | 1 => dflt ((p.pending.find (pkey x.id i)).or (p.active.find (pkey x.id i))) i
            | _ => dflt (p.committed.vals.find (pkey x.id i)) i
          Runs (.paramGet t c id index count type source) s
            (replies 0x0020 (byteResult ((List.range count).flatMap fun i => x.ty.toBytes (val (index + i)))))))) ∧
    (s.dev.accepts c 0x0022 → s.dev.commitRuns = true → Runs (.paramCommit t c) s (replies 0x0022 (stRes Sc.BUSY))) ∧
    (s.dev.accepts c 0x0022 → s.dev.commitRuns = false →
      (p.pending = [] → Runs (.paramCommit t c) s (replies 0x0022 (stRes Sc.DONE))) ∧
      (p.pending ≠ [] → ∀ st o, (s.dev.at t).commitFails = some (st, o) → Runs (.paramCommit t c) s (replies 0x0022 ⟨st, wordsBytes [o.1 + 65536 * o.2], []⟩)) ∧
      (∀ id v, p.pending = [(pkey id 0, v)] → id < 65536 →
        (p.lock = true → lockExempt id = false → Runs (.paramCommit t c) s (replies 0x0022 ⟨Sc.LOCKED, wordsBytes [id], []⟩)) ∧
        (p.lock = false → s.dev.mode.conv ≠ .deEnergised → keyTakes (pkey id 0) = .deEnergised → Runs (.paramCommit t c) s (replies 0x0022 ⟨Sc.STATE, wordsBytes [id], []⟩))) ∧
      (p.pending ≠ [] → (s.dev.at t).commitFails = none → (∀ x ∈ p.pending, keyTakes x.1 = .cycle) → Runs (.paramCommit t c) s fun s' =>
        let g := p.committed.gen + 1
        let older := if p.current = 0 then s'.dev.par.copy0 else s'.dev.par.copy1
        s'.dev.par.pending = [] ∧ s'.dev.par.committed = { gen := g, vals := (s.dev.at t).wholeSet, good := true } ∧ s'.dev.par.active = p.active
          ∧ s'.dev.par.waiting = p.waiting ++ p.pending ∧ older.gen = p.committed.gen ∧ older.good = p.committed.good
          ∧ (∀ k, k / 65536 < 0x4040 ∨ 0x4042 < k / 65536 → older.vals.find k = p.committed.vals.find k) ∧ s'.dev.sar = (s.at t).dev.sarFollow.sar
          ∧ Answered c 0x0022 ⟨Sc.DONE, wordsBytes [g, (s.dev.cyc.k + 1) % 2 ^ 32, (s.dev.cyc.k + 1) / 2 ^ 32], []⟩ s s'
          ∧ Only [.par, .boot, .mode, .sar, .host] t s s')) ∧
    (s.dev.accepts c 0x0023 → s.dev.commitRuns = true → Runs (.paramDiscard t c) s (replies 0x0023 (stRes Sc.BUSY))) ∧
    (s.dev.accepts c 0x0023 → s.dev.commitRuns = false → Runs (.paramDiscard t c) s fun s' =>
      s'.dev.par = { p with pending := [] } ∧ Answered c 0x0023 (stRes Sc.DONE) s s' ∧ Only [.par, .host] t s s') ∧
    (s.dev.accepts c 0x0024 →
      (p.pending = [] → Runs (.paramLock t c) s fun s' => s'.dev.par = { p with lock := true } ∧ Answered c 0x0024 (stRes Sc.DONE) s s' ∧ Only [.par, .host] t s s') ∧
      (p.pending ≠ [] → Runs (.paramLock t c) s (replies 0x0024 (stRes Sc.STATE)))) ∧
    ∀ first count, s.dev.accepts c 0x0025 →
      (256 < count → Runs (.paramList t c first count) s (replies 0x0025 (stRes Sc.RANGE))) ∧
      (count ≤ 256 → Runs (.paramList t c first count) s
        (replies 0x0025 ⟨Sc.DONE, [], ((paramTable.filter fun x => first ≤ x.id).take count).flatMap ParamDef.entry⟩))

/-! ## Granule queues (chapter 12) -/

/-- R414: without POP or PUSH in que.host the host reaches a queue by no command, without POP not by QUE_POP and without PUSH not
by QUE_PUSH: the command completes with DENIED and changes nothing else. With it, QUE_INFO answers, and QUE_POP of an empty
queue says so. -/
def Obligations.HostReachesAQueueOnlyAsAllowed : Prop :=
  ∀ (s : State) (t n : Nat) (c : CmdRef), n < 1024 →
    let u := s.dev.queue n
    let replies := fun (op : Nat) (r : CmdResult) (s' : State) => Answered c op r s s' ∧ Only [.host] t s s'
    (s.dev.hostMay n = 0 →
      (s.dev.accepts c 0x00E0 → Runs (.queInfo t c n) s (replies 0x00E0 (stRes Sc.DENIED))) ∧
      (s.dev.accepts c 0x00E3 → Runs (.queFlush t c n) s (replies 0x00E3 (stRes Sc.DENIED)))) ∧
    (∀ k len, k ≤ 256 → s.dev.accepts c 0x00E1 →
      (s.dev.hostMay n ≠ 1 → Runs (.quePop t c n k len) s (replies 0x00E1 (stRes Sc.DENIED))) ∧
      (s.dev.hostMay n = 1 → u.items = [] → Runs (.quePop t c n k len) s (replies 0x00E1 (stRes Sc.EMPTY)))) ∧
    (∀ k data, s.dev.accepts c 0x00E2 → s.dev.hostMay n ≠ 2 → Runs (.quePush t c n k data) s (replies 0x00E2 (stRes Sc.DENIED)))

/-- R409 to R415: an item enters a queue that has room with the next sequence number; at full a hardware producer's item is
dropped and counted, another producer stalls and goes on once there is room; pops free the item's granules, a WAIT pop waits;
FC_IN pauses; the host pops, pushes, flushes and asks as que.host allows. The model's choices in it: log entries 10, 20 and
136. -/
def Obligations.QueuesHoldItemsInOrder : Prop :=
  ∀ (s : State) (t n : Nat) (c : CmdRef), n < 1024 →
    let u := s.dev.queue n
    let replies := fun (op : Nat) (r : CmdResult) (s' : State) => Answered c op r s s' ∧ Only [.host] t s s'
    let others := fun (s' : State) => ∀ m, m ≠ n → s'.dev.queue m = s.dev.queue m
    (∀ prod payload, prod < 256 → s.dev.mayPush prod = false → 1 ≤ payload.length → payload.length ≤ 4096 → Runs (.queuePushEnd t n prod payload) s (Only [] t s)) ∧
    (∀ prod payload, prod < 256 → 1 ≤ payload.length → payload.length ≤ 4096 →
      let may := s.dev.mayPush prod = true
      let g := granules payload
      let enters := fun (s' : State) => (s'.dev.queue n).items = u.items ++ [⟨g, prod, u.seq, payload⟩] ∧ (s'.dev.queue n).seq = u.seq + 1
        ∧ (s'.dev.queue n).mark = (if s.dev.pni P.que_wm_hi n ≤ u.complete + g then true else if u.complete + g ≤ s.dev.pni P.que_wm_lo n then false else u.mark)
        ∧ others s' ∧ Only [.que, .log, .out] t s s'
      (u.partials.get 0 prod = 0 → s.dev.paused n = false → u.items.length < s.dev.pni P.que_cap_items n → u.total + g ≤ s.dev.pni P.que_cap_gran n →
        g ≤ s.dev.que.free → may → Runs (.queuePushEnd t n prod payload) s fun s' => enters s' ∧ s'.dev.que.free = s.dev.que.free - g) ∧
      (s.dev.pni P.que_cap_items n ≤ u.items.length →
        (hwProducer prod = true → may → Runs (.queuePushEnd t n prod payload) s fun s' =>
          s'.dev.queue n = { u with overflow := u.overflow + 1 } ∧ s'.dev.que.free = s.dev.que.free
            ∧ (s.dev.log.last.find (Ev.QUE_OVERFLOW * 65536 + n) = none → Logged Ev.QUE_OVERFLOW n s s') ∧ others s' ∧ Only [.que, .log, .out] t s s') ∧
        (hwProducer prod = false → may → Runs (.queuePushEnd t n prod payload) s fun s' =>
          (s'.dev.queue n).items = u.items ∧ (s'.dev.queue n).stalled.find prod = some payload ∧ (s'.dev.queue n).seq = u.seq ∧ others s'
            ∧ Only [.que, .log, .out] t s s') ∧
        Runs (.producerStallResume t n prod) s (Only [] t s)) ∧
      (u.stalled.find prod = some payload → u.partials.get 0 prod = 0 → s.dev.paused n = false → u.items.length < s.dev.pni P.que_cap_items n →
        u.total + g ≤ s.dev.pni P.que_cap_gran n → g ≤ s.dev.que.free → Runs (.producerStallResume t n prod) s enters)) ∧
    (∀ i r, u.items = i :: r →
      let popped := fun (s' : State) => (s'.dev.queue n).items = r ∧ s'.dev.que.free = s.dev.que.free + i.gran ∧ Out.item n i ∈ s'.dev.out
        ∧ others s' ∧ Only [.que, .log, .out] t s s'
      (∀ wait, Runs (.queuePop t n wait) s popped) ∧
      (u.waitPop = true → Runs (.waitPopComplete t n) s fun s' => (s'.dev.queue n).waitPop = false ∧ popped s')) ∧
    (u.items = [] → Runs (.queuePop t n true) s (fun s' => s'.dev.queue n = { u with waitPop := true } ∧ others s' ∧ Only [.que] t s s')
      ∧ Runs (.queuePop t n false) s (fun s' => s'.dev.out = (s.at t).dev.out ++ [.itemNone n] ∧ Only [.out] t s s') ∧ Runs (.waitPopComplete t n) s (Only [] t s)) ∧
    (∀ i high, i < 4 → Runs (.fcInChange t i high) s fun s' => bitN s'.dev.que.fcIn i = high ∧ (∀ j, j < 4 → j ≠ i → bitN s'.dev.que.fcIn j = bitN s.dev.que.fcIn j)
      ∧ (s.dev.pni P.que_fc_in n = i → s'.dev.paused n = high) ∧ Only [.que] t s s') ∧
    (∀ m, 1024 ≤ m → (s.dev.accepts c 0x00E0 → Runs (.queInfo t c m) s (replies 0x00E0 (stRes Sc.RANGE))) ∧ (s.dev.accepts c 0x00E3 → Runs (.queFlush t c m) s (replies 0x00E3 (stRes Sc.RANGE)))) ∧
    (s.dev.accepts c 0x00E0 →
      (s.dev.hostMay n ≠ 0 → Runs (.queInfo t c n) s (replies 0x00E0 ⟨Sc.DONE, wordsBytes [u.total % 2 ^ 24 + 2 ^ 24 * bit01 u.mark + 2 ^ 25 * bit01 (s.dev.paused n)
        + 2 ^ 26 * bit01 u.waitPop, u.items.length, u.overflow.toNat, u.trunc.toNat], []⟩))) ∧
    (∀ k len, s.dev.accepts c 0x00E1 → k ≤ 256 →
      (s.dev.hostMay n = 1 → u.items = [] → Runs (.quePop t c n k len) s (replies 0x00E1 (stRes Sc.EMPTY))) ∧
      (s.dev.hostMay n = 1 → u.items ≠ [] → u.items.length ≤ k → (u.items.map fun i => 8 + i.gran * 64).sum ≤ len → Runs (.quePop t c n k len) s fun s' =>
        (s'.dev.queue n).items = [] ∧ others s' ∧ Answered c 0x00E1 ⟨Sc.DONE, wordsBytes [u.items.length], u.items.flatMap Item.bytes⟩ s s'
          ∧ Only [.que, .log, .out, .host] t s s')) ∧
    (∀ payload, s.dev.accepts c 0x00E2 → 1 ≤ payload.length → payload.length ≤ 4096 →
      let data := bytesLE 4 payload.length ++ payload ++ List.replicate (ceilDiv payload.length 4 * 4 - payload.length) 0
      let g := granules payload
      (s.dev.hostMay n = 2 → s.dev.pni P.que_cap_items n ≤ u.items.length → Runs (.quePush t c n 1 data) s (replies 0x00E2 ⟨Sc.FULL, wordsBytes [0], []⟩)) ∧
      (s.dev.hostMay n = 2 → u.partials.get 0 77 = 0 → s.dev.paused n = false → u.items.length < s.dev.pni P.que_cap_items n →
        u.total + g ≤ s.dev.pni P.que_cap_gran n → g ≤ s.dev.que.free → Runs (.quePush t c n 1 data) s fun s' =>
          (s'.dev.queue n).items = u.items ++ [⟨g, 77, u.seq, payload⟩] ∧ others s' ∧ Answered c 0x00E2 ⟨Sc.DONE, wordsBytes [1], []⟩ s s'
            ∧ Only [.que, .log, .out, .host] t s s')) ∧
    (s.dev.accepts c 0x00E3 →
      (s.dev.hostMay n ≠ 0 → Runs (.queFlush t c n) s fun s' =>
        (s'.dev.queue n).items = [] ∧ (s'.dev.queue n).partials = [] ∧ (s'.dev.queue n).trunc = u.trunc + BitVec.ofNat 32 u.partials.length
          ∧ (s'.dev.queue n).seq = u.seq ∧ (s'.dev.queue n).overflow = u.overflow ∧ (s'.dev.queue n).waitPop = u.waitPop
          ∧ s'.dev.que.free = s.dev.que.free + u.total ∧ others s' ∧ Answered c 0x00E3 (stRes Sc.DONE) s s' ∧ Only [.que, .log, .out, .host] t s s'))


/-! ## Every step -/

/-- R420, R425, R449, R456: in every state that meets the invariant, a step that answers a next state keeps it. The model's
choice in it: log entry 7. -/
def Obligations.EveryStepKeepsTheInvariant : Prop := ∀ s s' : State, s.Inv → step s = .next s' → s'.Inv

/-- R449, R451, R456: no step turns back what the OTP has programmed or the device's own time, and a step takes no command from
the queue but the one at its front. The model's choices in it: log entries 4 and 7. -/
def Obligations.NoStepTurnsBack : Prop :=
  ∀ s s' : State, s.otp.rollback ≤ 256 → step s = .next s' → s.OneWay s' ∧ s'.pending = s.pending.tail

/-- R419, R420, R442, R477, R501, R329: reset meets the invariant, with both block requests set, no command waiting, the
converter in DE-ENERGISED, the debug window closed and the TBC at 0; on an empty queue one tick of own time passes. The
model's choices in it: log entries 5 and 7. -/
def Obligations.ResetMeetsTheInvariant : Prop :=
  State.reset.Inv ∧ State.reset.pending = [] ∧ State.reset.safe.a.request = true ∧ State.reset.safe.b.request = true ∧ State.reset.dev.mode.conv = .deEnergised
    ∧ State.reset.dev.sec.window = false ∧ State.reset.dev.tbc = 0 ∧ State.reset.dev.boot.operational = false
    ∧ ∀ s : State, s.pending = [] → ∃ s', step s = .next s' ∧ s'.dev.clk = s.dev.clk + 1 ∧ s'.pending = [] ∧ ∀ p : Part, p.kept (s.at (s.dev.clk + 1)) s'
end

