-- ==== Sys2Proof/Laws/State.lean ====
section
/-!
SUPPORT. Laws/State.lean: what the named updates of the device leave as it was, one lemma for each part.
-/
namespace Sys2Proof.Machine

open Sys2Proof

variable (d : Dev)

/-! ## Dev.at -/

@[simp] theorem Dev.at_clk (t : Nat) : (d.at t).clk = max d.clk t := rfl
@[simp] theorem Dev.at_openIx (t : Nat) : (d.at t).openIx = d.openIx := rfl
@[simp] theorem Dev.at_out (t : Nat) : (d.at t).out = d.out := rfl
@[simp] theorem Dev.at_log (t : Nat) : (d.at t).log = d.log := rfl
@[simp] theorem Dev.at_boot (t : Nat) : (d.at t).boot = d.boot := rfl
@[simp] theorem Dev.at_flt (t : Nat) : (d.at t).flt = d.flt := rfl
@[simp] theorem Dev.at_sec (t : Nat) : (d.at t).sec = d.sec := rfl
@[simp] theorem Dev.at_par (t : Nat) : (d.at t).par = d.par := rfl
@[simp] theorem Dev.at_host (t : Nat) : (d.at t).host = d.host := rfl
@[simp] theorem Dev.at_que (t : Nat) : (d.at t).que = d.que := rfl
@[simp] theorem Dev.at_tim (t : Nat) : (d.at t).tim = d.tim := rfl
@[simp] theorem Dev.at_mode (t : Nat) : (d.at t).mode = d.mode := rfl
@[simp] theorem Dev.at_fab (t : Nat) : (d.at t).fab = d.fab := rfl
@[simp] theorem Dev.at_cyc (t : Nat) : (d.at t).cyc = d.cyc := rfl
@[simp] theorem Dev.at_meas (t : Nat) : (d.at t).meas = d.meas := rfl
@[simp] theorem Dev.at_cp (t : Nat) : (d.at t).cp = d.cp := rfl
@[simp] theorem Dev.at_down (t : Nat) : (d.at t).down = d.down := rfl
@[simp] theorem Dev.at_twin (t : Nat) : (d.at t).twin = d.twin := rfl
@[simp] theorem Dev.at_sar (t : Nat) : (d.at t).sar = d.sar := rfl
@[simp] theorem Dev.at_ctl (t : Nat) : (d.at t).ctl = d.ctl := rfl
@[simp] theorem Dev.at_acq (t : Nat) : (d.at t).acq = d.acq := rfl

/-! ## Dev.until -/

@[simp] theorem Dev.until_clk (t : Nat) (d' : Dev) : (d.until t d').clk = max d.clk t := rfl
@[simp] theorem Dev.until_openIx (t : Nat) (d' : Dev) : (d.until t d').openIx = d'.openIx := rfl
@[simp] theorem Dev.until_out (t : Nat) (d' : Dev) : (d.until t d').out = d'.out := rfl
@[simp] theorem Dev.until_log (t : Nat) (d' : Dev) : (d.until t d').log = d'.log := rfl
@[simp] theorem Dev.until_boot (t : Nat) (d' : Dev) : (d.until t d').boot = d'.boot := rfl
@[simp] theorem Dev.until_flt (t : Nat) (d' : Dev) : (d.until t d').flt = d'.flt := rfl
@[simp] theorem Dev.until_sec (t : Nat) (d' : Dev) : (d.until t d').sec = d'.sec := rfl
@[simp] theorem Dev.until_par (t : Nat) (d' : Dev) : (d.until t d').par = d'.par := rfl
@[simp] theorem Dev.until_host (t : Nat) (d' : Dev) : (d.until t d').host = d'.host := rfl
@[simp] theorem Dev.until_que (t : Nat) (d' : Dev) : (d.until t d').que = d'.que := rfl
@[simp] theorem Dev.until_tim (t : Nat) (d' : Dev) : (d.until t d').tim = d'.tim := rfl
@[simp] theorem Dev.until_mode (t : Nat) (d' : Dev) : (d.until t d').mode = d'.mode := rfl
@[simp] theorem Dev.until_fab (t : Nat) (d' : Dev) : (d.until t d').fab = d'.fab := rfl
@[simp] theorem Dev.until_cyc (t : Nat) (d' : Dev) : (d.until t d').cyc = d'.cyc := rfl
@[simp] theorem Dev.until_meas (t : Nat) (d' : Dev) : (d.until t d').meas = d'.meas := rfl
@[simp] theorem Dev.until_cp (t : Nat) (d' : Dev) : (d.until t d').cp = d'.cp := rfl
@[simp] theorem Dev.until_down (t : Nat) (d' : Dev) : (d.until t d').down = d'.down := rfl
@[simp] theorem Dev.until_twin (t : Nat) (d' : Dev) : (d.until t d').twin = d'.twin := rfl
@[simp] theorem Dev.until_sar (t : Nat) (d' : Dev) : (d.until t d').sar = d'.sar := rfl
@[simp] theorem Dev.until_ctl (t : Nat) (d' : Dev) : (d.until t d').ctl = d'.ctl := rfl
@[simp] theorem Dev.until_acq (t : Nat) (d' : Dev) : (d.until t d').acq = d'.acq := rfl

/-! ## Dev.drawn -/

@[simp] theorem Dev.drawn_clk : d.drawn.clk = d.clk := rfl
@[simp] theorem Dev.drawn_out : d.drawn.out = d.out := rfl
@[simp] theorem Dev.drawn_log : d.drawn.log = d.log := rfl
@[simp] theorem Dev.drawn_boot : d.drawn.boot = d.boot := rfl
@[simp] theorem Dev.drawn_flt : d.drawn.flt = d.flt := rfl
@[simp] theorem Dev.drawn_sec : d.drawn.sec = d.sec := rfl
@[simp] theorem Dev.drawn_par : d.drawn.par = d.par := rfl
@[simp] theorem Dev.drawn_host : d.drawn.host = d.host := rfl
@[simp] theorem Dev.drawn_que : d.drawn.que = d.que := rfl
@[simp] theorem Dev.drawn_tim : d.drawn.tim = d.tim := rfl
@[simp] theorem Dev.drawn_mode : d.drawn.mode = d.mode := rfl
@[simp] theorem Dev.drawn_fab : d.drawn.fab = d.fab := rfl
@[simp] theorem Dev.drawn_cyc : d.drawn.cyc = d.cyc := rfl
@[simp] theorem Dev.drawn_meas : d.drawn.meas = d.meas := rfl
@[simp] theorem Dev.drawn_cp : d.drawn.cp = d.cp := rfl
@[simp] theorem Dev.drawn_down : d.drawn.down = d.down := rfl
@[simp] theorem Dev.drawn_twin : d.drawn.twin = d.twin := rfl
@[simp] theorem Dev.drawn_sar : d.drawn.sar = d.sar := rfl
@[simp] theorem Dev.drawn_ctl : d.drawn.ctl = d.ctl := rfl
@[simp] theorem Dev.drawn_acq : d.drawn.acq = d.acq := rfl

/-! ## Dev.emit -/

@[simp] theorem Dev.emit_clk (o : Out) : (d.emit o).clk = d.clk := rfl
@[simp] theorem Dev.emit_openIx (o : Out) : (d.emit o).openIx = d.openIx := rfl
@[simp] theorem Dev.emit_log (o : Out) : (d.emit o).log = d.log := rfl
@[simp] theorem Dev.emit_boot (o : Out) : (d.emit o).boot = d.boot := rfl
@[simp] theorem Dev.emit_flt (o : Out) : (d.emit o).flt = d.flt := rfl
@[simp] theorem Dev.emit_sec (o : Out) : (d.emit o).sec = d.sec := rfl
@[simp] theorem Dev.emit_par (o : Out) : (d.emit o).par = d.par := rfl
@[simp] theorem Dev.emit_host (o : Out) : (d.emit o).host = d.host := rfl
@[simp] theorem Dev.emit_que (o : Out) : (d.emit o).que = d.que := rfl
@[simp] theorem Dev.emit_tim (o : Out) : (d.emit o).tim = d.tim := rfl
@[simp] theorem Dev.emit_mode (o : Out) : (d.emit o).mode = d.mode := rfl
@[simp] theorem Dev.emit_fab (o : Out) : (d.emit o).fab = d.fab := rfl
@[simp] theorem Dev.emit_cyc (o : Out) : (d.emit o).cyc = d.cyc := rfl
@[simp] theorem Dev.emit_meas (o : Out) : (d.emit o).meas = d.meas := rfl
@[simp] theorem Dev.emit_cp (o : Out) : (d.emit o).cp = d.cp := rfl
@[simp] theorem Dev.emit_down (o : Out) : (d.emit o).down = d.down := rfl
@[simp] theorem Dev.emit_twin (o : Out) : (d.emit o).twin = d.twin := rfl
@[simp] theorem Dev.emit_sar (o : Out) : (d.emit o).sar = d.sar := rfl
@[simp] theorem Dev.emit_ctl (o : Out) : (d.emit o).ctl = d.ctl := rfl
@[simp] theorem Dev.emit_acq (o : Out) : (d.emit o).acq = d.acq := rfl

/-! ## Dev.signalEvent -/

@[simp] theorem Dev.signalEvent_clk (sev : Nat) : (d.signalEvent sev).clk = d.clk := by unfold Dev.signalEvent; split <;> rfl
@[simp] theorem Dev.signalEvent_openIx (sev : Nat) : (d.signalEvent sev).openIx = d.openIx := by unfold Dev.signalEvent; split <;> rfl
@[simp] theorem Dev.signalEvent_log (sev : Nat) : (d.signalEvent sev).log = d.log := by unfold Dev.signalEvent; split <;> rfl
@[simp] theorem Dev.signalEvent_boot (sev : Nat) : (d.signalEvent sev).boot = d.boot := by unfold Dev.signalEvent; split <;> rfl
@[simp] theorem Dev.signalEvent_flt (sev : Nat) : (d.signalEvent sev).flt = d.flt := by unfold Dev.signalEvent; split <;> rfl
@[simp] theorem Dev.signalEvent_sec (sev : Nat) : (d.signalEvent sev).sec = d.sec := by unfold Dev.signalEvent; split <;> rfl
@[simp] theorem Dev.signalEvent_par (sev : Nat) : (d.signalEvent sev).par = d.par := by unfold Dev.signalEvent; split <;> rfl
@[simp] theorem Dev.signalEvent_host (sev : Nat) : (d.signalEvent sev).host = d.host := by unfold Dev.signalEvent; split <;> rfl
@[simp] theorem Dev.signalEvent_que (sev : Nat) : (d.signalEvent sev).que = d.que := by unfold Dev.signalEvent; split <;> rfl
@[simp] theorem Dev.signalEvent_tim (sev : Nat) : (d.signalEvent sev).tim = d.tim := by unfold Dev.signalEvent; split <;> rfl
@[simp] theorem Dev.signalEvent_mode (sev : Nat) : (d.signalEvent sev).mode = d.mode := by unfold Dev.signalEvent; split <;> rfl
@[simp] theorem Dev.signalEvent_fab (sev : Nat) : (d.signalEvent sev).fab = d.fab := by unfold Dev.signalEvent; split <;> rfl
@[simp] theorem Dev.signalEvent_cyc (sev : Nat) : (d.signalEvent sev).cyc = d.cyc := by unfold Dev.signalEvent; split <;> rfl
@[simp] theorem Dev.signalEvent_meas (sev : Nat) : (d.signalEvent sev).meas = d.meas := by unfold Dev.signalEvent; split <;> rfl
@[simp] theorem Dev.signalEvent_cp (sev : Nat) : (d.signalEvent sev).cp = d.cp := by unfold Dev.signalEvent; split <;> rfl
@[simp] theorem Dev.signalEvent_down (sev : Nat) : (d.signalEvent sev).down = d.down := by unfold Dev.signalEvent; split <;> rfl
@[simp] theorem Dev.signalEvent_twin (sev : Nat) : (d.signalEvent sev).twin = d.twin := by unfold Dev.signalEvent; split <;> rfl
@[simp] theorem Dev.signalEvent_sar (sev : Nat) : (d.signalEvent sev).sar = d.sar := by unfold Dev.signalEvent; split <;> rfl
@[simp] theorem Dev.signalEvent_ctl (sev : Nat) : (d.signalEvent sev).ctl = d.ctl := by unfold Dev.signalEvent; split <;> rfl
@[simp] theorem Dev.signalEvent_acq (sev : Nat) : (d.signalEvent sev).acq = d.acq := by unfold Dev.signalEvent; split <;> rfl

/-! ## Dev.raiseB -/

@[simp] theorem Dev.raiseB_clk (code : Nat) (arg : List Byte) : (d.raiseB code arg).clk = d.clk := Dev.signalEvent_clk _ _
@[simp] theorem Dev.raiseB_openIx (code : Nat) (arg : List Byte) : (d.raiseB code arg).openIx = d.openIx := Dev.signalEvent_openIx _ _
@[simp] theorem Dev.raiseB_boot (code : Nat) (arg : List Byte) : (d.raiseB code arg).boot = d.boot := Dev.signalEvent_boot _ _
@[simp] theorem Dev.raiseB_flt (code : Nat) (arg : List Byte) : (d.raiseB code arg).flt = d.flt := Dev.signalEvent_flt _ _
@[simp] theorem Dev.raiseB_sec (code : Nat) (arg : List Byte) : (d.raiseB code arg).sec = d.sec := Dev.signalEvent_sec _ _
@[simp] theorem Dev.raiseB_par (code : Nat) (arg : List Byte) : (d.raiseB code arg).par = d.par := Dev.signalEvent_par _ _
@[simp] theorem Dev.raiseB_host (code : Nat) (arg : List Byte) : (d.raiseB code arg).host = d.host := Dev.signalEvent_host _ _
@[simp] theorem Dev.raiseB_que (code : Nat) (arg : List Byte) : (d.raiseB code arg).que = d.que := Dev.signalEvent_que _ _
@[simp] theorem Dev.raiseB_tim (code : Nat) (arg : List Byte) : (d.raiseB code arg).tim = d.tim := Dev.signalEvent_tim _ _
@[simp] theorem Dev.raiseB_mode (code : Nat) (arg : List Byte) : (d.raiseB code arg).mode = d.mode := Dev.signalEvent_mode _ _
@[simp] theorem Dev.raiseB_fab (code : Nat) (arg : List Byte) : (d.raiseB code arg).fab = d.fab := Dev.signalEvent_fab _ _
@[simp] theorem Dev.raiseB_cyc (code : Nat) (arg : List Byte) : (d.raiseB code arg).cyc = d.cyc := Dev.signalEvent_cyc _ _
@[simp] theorem Dev.raiseB_meas (code : Nat) (arg : List Byte) : (d.raiseB code arg).meas = d.meas := Dev.signalEvent_meas _ _
@[simp] theorem Dev.raiseB_cp (code : Nat) (arg : List Byte) : (d.raiseB code arg).cp = d.cp := Dev.signalEvent_cp _ _
@[simp] theorem Dev.raiseB_down (code : Nat) (arg : List Byte) : (d.raiseB code arg).down = d.down := Dev.signalEvent_down _ _
@[simp] theorem Dev.raiseB_twin (code : Nat) (arg : List Byte) : (d.raiseB code arg).twin = d.twin := Dev.signalEvent_twin _ _
@[simp] theorem Dev.raiseB_sar (code : Nat) (arg : List Byte) : (d.raiseB code arg).sar = d.sar := Dev.signalEvent_sar _ _
@[simp] theorem Dev.raiseB_ctl (code : Nat) (arg : List Byte) : (d.raiseB code arg).ctl = d.ctl := Dev.signalEvent_ctl _ _
@[simp] theorem Dev.raiseB_acq (code : Nat) (arg : List Byte) : (d.raiseB code arg).acq = d.acq := Dev.signalEvent_acq _ _

/-! ## Dev.raise -/

@[simp] theorem Dev.raise_clk (code arg : Nat) : (d.raise code arg).clk = d.clk := Dev.raiseB_clk _ _ _
@[simp] theorem Dev.raise_openIx (code arg : Nat) : (d.raise code arg).openIx = d.openIx := Dev.raiseB_openIx _ _ _
@[simp] theorem Dev.raise_boot (code arg : Nat) : (d.raise code arg).boot = d.boot := Dev.raiseB_boot _ _ _
@[simp] theorem Dev.raise_flt (code arg : Nat) : (d.raise code arg).flt = d.flt := Dev.raiseB_flt _ _ _
@[simp] theorem Dev.raise_sec (code arg : Nat) : (d.raise code arg).sec = d.sec := Dev.raiseB_sec _ _ _
@[simp] theorem Dev.raise_par (code arg : Nat) : (d.raise code arg).par = d.par := Dev.raiseB_par _ _ _
@[simp] theorem Dev.raise_host (code arg : Nat) : (d.raise code arg).host = d.host := Dev.raiseB_host _ _ _
@[simp] theorem Dev.raise_que (code arg : Nat) : (d.raise code arg).que = d.que := Dev.raiseB_que _ _ _
@[simp] theorem Dev.raise_tim (code arg : Nat) : (d.raise code arg).tim = d.tim := Dev.raiseB_tim _ _ _
@[simp] theorem Dev.raise_mode (code arg : Nat) : (d.raise code arg).mode = d.mode := Dev.raiseB_mode _ _ _
@[simp] theorem Dev.raise_fab (code arg : Nat) : (d.raise code arg).fab = d.fab := Dev.raiseB_fab _ _ _
@[simp] theorem Dev.raise_cyc (code arg : Nat) : (d.raise code arg).cyc = d.cyc := Dev.raiseB_cyc _ _ _
@[simp] theorem Dev.raise_meas (code arg : Nat) : (d.raise code arg).meas = d.meas := Dev.raiseB_meas _ _ _
@[simp] theorem Dev.raise_cp (code arg : Nat) : (d.raise code arg).cp = d.cp := Dev.raiseB_cp _ _ _
@[simp] theorem Dev.raise_down (code arg : Nat) : (d.raise code arg).down = d.down := Dev.raiseB_down _ _ _
@[simp] theorem Dev.raise_twin (code arg : Nat) : (d.raise code arg).twin = d.twin := Dev.raiseB_twin _ _ _
@[simp] theorem Dev.raise_sar (code arg : Nat) : (d.raise code arg).sar = d.sar := Dev.raiseB_sar _ _ _
@[simp] theorem Dev.raise_ctl (code arg : Nat) : (d.raise code arg).ctl = d.ctl := Dev.raiseB_ctl _ _ _
@[simp] theorem Dev.raise_acq (code arg : Nat) : (d.raise code arg).acq = d.acq := Dev.raiseB_acq _ _ _

/-! ## Dev.raiseLimB -/

@[simp] theorem Dev.raiseLimB_clk (code key period : Nat) (arg : List Byte) : (d.raiseLimB code key period arg).clk = d.clk := by simp only [Dev.raiseLimB]; split <;> (try split) <;> simp
@[simp] theorem Dev.raiseLimB_openIx (code key period : Nat) (arg : List Byte) : (d.raiseLimB code key period arg).openIx = d.openIx := by simp only [Dev.raiseLimB]; split <;> (try split) <;> simp
@[simp] theorem Dev.raiseLimB_boot (code key period : Nat) (arg : List Byte) : (d.raiseLimB code key period arg).boot = d.boot := by simp only [Dev.raiseLimB]; split <;> (try split) <;> simp
@[simp] theorem Dev.raiseLimB_flt (code key period : Nat) (arg : List Byte) : (d.raiseLimB code key period arg).flt = d.flt := by simp only [Dev.raiseLimB]; split <;> (try split) <;> simp
@[simp] theorem Dev.raiseLimB_sec (code key period : Nat) (arg : List Byte) : (d.raiseLimB code key period arg).sec = d.sec := by simp only [Dev.raiseLimB]; split <;> (try split) <;> simp
@[simp] theorem Dev.raiseLimB_par (code key period : Nat) (arg : List Byte) : (d.raiseLimB code key period arg).par = d.par := by simp only [Dev.raiseLimB]; split <;> (try split) <;> simp
@[simp] theorem Dev.raiseLimB_host (code key period : Nat) (arg : List Byte) : (d.raiseLimB code key period arg).host = d.host := by simp only [Dev.raiseLimB]; split <;> (try split) <;> simp
@[simp] theorem Dev.raiseLimB_que (code key period : Nat) (arg : List Byte) : (d.raiseLimB code key period arg).que = d.que := by simp only [Dev.raiseLimB]; split <;> (try split) <;> simp
@[simp] theorem Dev.raiseLimB_tim (code key period : Nat) (arg : List Byte) : (d.raiseLimB code key period arg).tim = d.tim := by simp only [Dev.raiseLimB]; split <;> (try split) <;> simp
@[simp] theorem Dev.raiseLimB_mode (code key period : Nat) (arg : List Byte) : (d.raiseLimB code key period arg).mode = d.mode := by simp only [Dev.raiseLimB]; split <;> (try split) <;> simp
@[simp] theorem Dev.raiseLimB_fab (code key period : Nat) (arg : List Byte) : (d.raiseLimB code key period arg).fab = d.fab := by simp only [Dev.raiseLimB]; split <;> (try split) <;> simp
@[simp] theorem Dev.raiseLimB_cyc (code key period : Nat) (arg : List Byte) : (d.raiseLimB code key period arg).cyc = d.cyc := by simp only [Dev.raiseLimB]; split <;> (try split) <;> simp
@[simp] theorem Dev.raiseLimB_meas (code key period : Nat) (arg : List Byte) : (d.raiseLimB code key period arg).meas = d.meas := by simp only [Dev.raiseLimB]; split <;> (try split) <;> simp
@[simp] theorem Dev.raiseLimB_cp (code key period : Nat) (arg : List Byte) : (d.raiseLimB code key period arg).cp = d.cp := by simp only [Dev.raiseLimB]; split <;> (try split) <;> simp
@[simp] theorem Dev.raiseLimB_down (code key period : Nat) (arg : List Byte) : (d.raiseLimB code key period arg).down = d.down := by simp only [Dev.raiseLimB]; split <;> (try split) <;> simp
@[simp] theorem Dev.raiseLimB_twin (code key period : Nat) (arg : List Byte) : (d.raiseLimB code key period arg).twin = d.twin := by simp only [Dev.raiseLimB]; split <;> (try split) <;> simp
@[simp] theorem Dev.raiseLimB_sar (code key period : Nat) (arg : List Byte) : (d.raiseLimB code key period arg).sar = d.sar := by simp only [Dev.raiseLimB]; split <;> (try split) <;> simp
@[simp] theorem Dev.raiseLimB_ctl (code key period : Nat) (arg : List Byte) : (d.raiseLimB code key period arg).ctl = d.ctl := by simp only [Dev.raiseLimB]; split <;> (try split) <;> simp
@[simp] theorem Dev.raiseLimB_acq (code key period : Nat) (arg : List Byte) : (d.raiseLimB code key period arg).acq = d.acq := by simp only [Dev.raiseLimB]; split <;> (try split) <;> simp

/-! ## Dev.raiseLim -/

@[simp] theorem Dev.raiseLim_clk (code key period arg : Nat) : (d.raiseLim code key period arg).clk = d.clk := Dev.raiseLimB_clk _ _ _ _ _
@[simp] theorem Dev.raiseLim_openIx (code key period arg : Nat) : (d.raiseLim code key period arg).openIx = d.openIx := Dev.raiseLimB_openIx _ _ _ _ _
@[simp] theorem Dev.raiseLim_boot (code key period arg : Nat) : (d.raiseLim code key period arg).boot = d.boot := Dev.raiseLimB_boot _ _ _ _ _
@[simp] theorem Dev.raiseLim_flt (code key period arg : Nat) : (d.raiseLim code key period arg).flt = d.flt := Dev.raiseLimB_flt _ _ _ _ _
@[simp] theorem Dev.raiseLim_sec (code key period arg : Nat) : (d.raiseLim code key period arg).sec = d.sec := Dev.raiseLimB_sec _ _ _ _ _
@[simp] theorem Dev.raiseLim_par (code key period arg : Nat) : (d.raiseLim code key period arg).par = d.par := Dev.raiseLimB_par _ _ _ _ _
@[simp] theorem Dev.raiseLim_host (code key period arg : Nat) : (d.raiseLim code key period arg).host = d.host := Dev.raiseLimB_host _ _ _ _ _
@[simp] theorem Dev.raiseLim_que (code key period arg : Nat) : (d.raiseLim code key period arg).que = d.que := Dev.raiseLimB_que _ _ _ _ _
@[simp] theorem Dev.raiseLim_tim (code key period arg : Nat) : (d.raiseLim code key period arg).tim = d.tim := Dev.raiseLimB_tim _ _ _ _ _
@[simp] theorem Dev.raiseLim_mode (code key period arg : Nat) : (d.raiseLim code key period arg).mode = d.mode := Dev.raiseLimB_mode _ _ _ _ _
@[simp] theorem Dev.raiseLim_fab (code key period arg : Nat) : (d.raiseLim code key period arg).fab = d.fab := Dev.raiseLimB_fab _ _ _ _ _
@[simp] theorem Dev.raiseLim_cyc (code key period arg : Nat) : (d.raiseLim code key period arg).cyc = d.cyc := Dev.raiseLimB_cyc _ _ _ _ _
@[simp] theorem Dev.raiseLim_meas (code key period arg : Nat) : (d.raiseLim code key period arg).meas = d.meas := Dev.raiseLimB_meas _ _ _ _ _
@[simp] theorem Dev.raiseLim_cp (code key period arg : Nat) : (d.raiseLim code key period arg).cp = d.cp := Dev.raiseLimB_cp _ _ _ _ _
@[simp] theorem Dev.raiseLim_down (code key period arg : Nat) : (d.raiseLim code key period arg).down = d.down := Dev.raiseLimB_down _ _ _ _ _
@[simp] theorem Dev.raiseLim_twin (code key period arg : Nat) : (d.raiseLim code key period arg).twin = d.twin := Dev.raiseLimB_twin _ _ _ _ _
@[simp] theorem Dev.raiseLim_sar (code key period arg : Nat) : (d.raiseLim code key period arg).sar = d.sar := Dev.raiseLimB_sar _ _ _ _ _
@[simp] theorem Dev.raiseLim_ctl (code key period arg : Nat) : (d.raiseLim code key period arg).ctl = d.ctl := Dev.raiseLimB_ctl _ _ _ _ _
@[simp] theorem Dev.raiseLim_acq (code key period arg : Nat) : (d.raiseLim code key period arg).acq = d.acq := Dev.raiseLimB_acq _ _ _ _ _

/-! ## Dev.setDl -/

@[simp] theorem Dev.setDl_clk (n : Nat) (x : Downlink) : (d.setDl n x).clk = d.clk := rfl
@[simp] theorem Dev.setDl_openIx (n : Nat) (x : Downlink) : (d.setDl n x).openIx = d.openIx := rfl
@[simp] theorem Dev.setDl_out (n : Nat) (x : Downlink) : (d.setDl n x).out = d.out := rfl
@[simp] theorem Dev.setDl_log (n : Nat) (x : Downlink) : (d.setDl n x).log = d.log := rfl
@[simp] theorem Dev.setDl_boot (n : Nat) (x : Downlink) : (d.setDl n x).boot = d.boot := rfl
@[simp] theorem Dev.setDl_flt (n : Nat) (x : Downlink) : (d.setDl n x).flt = d.flt := rfl
@[simp] theorem Dev.setDl_sec (n : Nat) (x : Downlink) : (d.setDl n x).sec = d.sec := rfl
@[simp] theorem Dev.setDl_par (n : Nat) (x : Downlink) : (d.setDl n x).par = d.par := rfl
@[simp] theorem Dev.setDl_host (n : Nat) (x : Downlink) : (d.setDl n x).host = d.host := rfl
@[simp] theorem Dev.setDl_que (n : Nat) (x : Downlink) : (d.setDl n x).que = d.que := rfl
@[simp] theorem Dev.setDl_tim (n : Nat) (x : Downlink) : (d.setDl n x).tim = d.tim := rfl
@[simp] theorem Dev.setDl_mode (n : Nat) (x : Downlink) : (d.setDl n x).mode = d.mode := rfl
@[simp] theorem Dev.setDl_fab (n : Nat) (x : Downlink) : (d.setDl n x).fab = d.fab := rfl
@[simp] theorem Dev.setDl_cyc (n : Nat) (x : Downlink) : (d.setDl n x).cyc = d.cyc := rfl
@[simp] theorem Dev.setDl_meas (n : Nat) (x : Downlink) : (d.setDl n x).meas = d.meas := rfl
@[simp] theorem Dev.setDl_cp (n : Nat) (x : Downlink) : (d.setDl n x).cp = d.cp := rfl
@[simp] theorem Dev.setDl_twin (n : Nat) (x : Downlink) : (d.setDl n x).twin = d.twin := rfl
@[simp] theorem Dev.setDl_sar (n : Nat) (x : Downlink) : (d.setDl n x).sar = d.sar := rfl
@[simp] theorem Dev.setDl_ctl (n : Nat) (x : Downlink) : (d.setDl n x).ctl = d.ctl := rfl
@[simp] theorem Dev.setDl_acq (n : Nat) (x : Downlink) : (d.setDl n x).acq = d.acq := rfl

/-! ## Dev.complete -/

@[simp] theorem Dev.complete_clk (c : CmdRef) (op : Nat) (r : CmdResult) : (d.complete c op r).clk = d.clk := rfl
@[simp] theorem Dev.complete_openIx (c : CmdRef) (op : Nat) (r : CmdResult) : (d.complete c op r).openIx = d.openIx := rfl
@[simp] theorem Dev.complete_out (c : CmdRef) (op : Nat) (r : CmdResult) : (d.complete c op r).out = d.out := rfl
@[simp] theorem Dev.complete_log (c : CmdRef) (op : Nat) (r : CmdResult) : (d.complete c op r).log = d.log := rfl
@[simp] theorem Dev.complete_boot (c : CmdRef) (op : Nat) (r : CmdResult) : (d.complete c op r).boot = d.boot := rfl
@[simp] theorem Dev.complete_flt (c : CmdRef) (op : Nat) (r : CmdResult) : (d.complete c op r).flt = d.flt := rfl
@[simp] theorem Dev.complete_sec (c : CmdRef) (op : Nat) (r : CmdResult) : (d.complete c op r).sec = d.sec := rfl
@[simp] theorem Dev.complete_par (c : CmdRef) (op : Nat) (r : CmdResult) : (d.complete c op r).par = d.par := rfl
@[simp] theorem Dev.complete_que (c : CmdRef) (op : Nat) (r : CmdResult) : (d.complete c op r).que = d.que := rfl
@[simp] theorem Dev.complete_tim (c : CmdRef) (op : Nat) (r : CmdResult) : (d.complete c op r).tim = d.tim := rfl
@[simp] theorem Dev.complete_mode (c : CmdRef) (op : Nat) (r : CmdResult) : (d.complete c op r).mode = d.mode := rfl
@[simp] theorem Dev.complete_fab (c : CmdRef) (op : Nat) (r : CmdResult) : (d.complete c op r).fab = d.fab := rfl
@[simp] theorem Dev.complete_cyc (c : CmdRef) (op : Nat) (r : CmdResult) : (d.complete c op r).cyc = d.cyc := rfl
@[simp] theorem Dev.complete_meas (c : CmdRef) (op : Nat) (r : CmdResult) : (d.complete c op r).meas = d.meas := rfl
@[simp] theorem Dev.complete_cp (c : CmdRef) (op : Nat) (r : CmdResult) : (d.complete c op r).cp = d.cp := rfl
@[simp] theorem Dev.complete_down (c : CmdRef) (op : Nat) (r : CmdResult) : (d.complete c op r).down = d.down := rfl
@[simp] theorem Dev.complete_twin (c : CmdRef) (op : Nat) (r : CmdResult) : (d.complete c op r).twin = d.twin := rfl
@[simp] theorem Dev.complete_sar (c : CmdRef) (op : Nat) (r : CmdResult) : (d.complete c op r).sar = d.sar := rfl
@[simp] theorem Dev.complete_ctl (c : CmdRef) (op : Nat) (r : CmdResult) : (d.complete c op r).ctl = d.ctl := rfl
@[simp] theorem Dev.complete_acq (c : CmdRef) (op : Nat) (r : CmdResult) : (d.complete c op r).acq = d.acq := rfl

/-! ## Dev.setLane -/

@[simp] theorem Dev.setLane_clk (n : Nat) (x : Lane) : (d.setLane n x).clk = d.clk := rfl
@[simp] theorem Dev.setLane_openIx (n : Nat) (x : Lane) : (d.setLane n x).openIx = d.openIx := rfl
@[simp] theorem Dev.setLane_out (n : Nat) (x : Lane) : (d.setLane n x).out = d.out := rfl
@[simp] theorem Dev.setLane_log (n : Nat) (x : Lane) : (d.setLane n x).log = d.log := rfl
@[simp] theorem Dev.setLane_boot (n : Nat) (x : Lane) : (d.setLane n x).boot = d.boot := rfl
@[simp] theorem Dev.setLane_flt (n : Nat) (x : Lane) : (d.setLane n x).flt = d.flt := rfl
@[simp] theorem Dev.setLane_sec (n : Nat) (x : Lane) : (d.setLane n x).sec = d.sec := rfl
@[simp] theorem Dev.setLane_par (n : Nat) (x : Lane) : (d.setLane n x).par = d.par := rfl
@[simp] theorem Dev.setLane_host (n : Nat) (x : Lane) : (d.setLane n x).host = d.host := rfl
@[simp] theorem Dev.setLane_que (n : Nat) (x : Lane) : (d.setLane n x).que = d.que := rfl
@[simp] theorem Dev.setLane_tim (n : Nat) (x : Lane) : (d.setLane n x).tim = d.tim := rfl
@[simp] theorem Dev.setLane_mode (n : Nat) (x : Lane) : (d.setLane n x).mode = d.mode := rfl
@[simp] theorem Dev.setLane_cyc (n : Nat) (x : Lane) : (d.setLane n x).cyc = d.cyc := rfl
@[simp] theorem Dev.setLane_meas (n : Nat) (x : Lane) : (d.setLane n x).meas = d.meas := rfl
@[simp] theorem Dev.setLane_cp (n : Nat) (x : Lane) : (d.setLane n x).cp = d.cp := rfl
@[simp] theorem Dev.setLane_down (n : Nat) (x : Lane) : (d.setLane n x).down = d.down := rfl
@[simp] theorem Dev.setLane_twin (n : Nat) (x : Lane) : (d.setLane n x).twin = d.twin := rfl
@[simp] theorem Dev.setLane_sar (n : Nat) (x : Lane) : (d.setLane n x).sar = d.sar := rfl
@[simp] theorem Dev.setLane_ctl (n : Nat) (x : Lane) : (d.setLane n x).ctl = d.ctl := rfl
@[simp] theorem Dev.setLane_acq (n : Nat) (x : Lane) : (d.setLane n x).acq = d.acq := rfl

/-! ## Dev.setLink -/

@[simp] theorem Dev.setLink_clk (n : Nat) (x : Link) : (d.setLink n x).clk = d.clk := rfl
@[simp] theorem Dev.setLink_openIx (n : Nat) (x : Link) : (d.setLink n x).openIx = d.openIx := rfl
@[simp] theorem Dev.setLink_out (n : Nat) (x : Link) : (d.setLink n x).out = d.out := rfl
@[simp] theorem Dev.setLink_log (n : Nat) (x : Link) : (d.setLink n x).log = d.log := rfl
@[simp] theorem Dev.setLink_boot (n : Nat) (x : Link) : (d.setLink n x).boot = d.boot := rfl
@[simp] theorem Dev.setLink_flt (n : Nat) (x : Link) : (d.setLink n x).flt = d.flt := rfl
@[simp] theorem Dev.setLink_sec (n : Nat) (x : Link) : (d.setLink n x).sec = d.sec := rfl
@[simp] theorem Dev.setLink_par (n : Nat) (x : Link) : (d.setLink n x).par = d.par := rfl
@[simp] theorem Dev.setLink_host (n : Nat) (x : Link) : (d.setLink n x).host = d.host := rfl
@[simp] theorem Dev.setLink_que (n : Nat) (x : Link) : (d.setLink n x).que = d.que := rfl
@[simp] theorem Dev.setLink_tim (n : Nat) (x : Link) : (d.setLink n x).tim = d.tim := rfl
@[simp] theorem Dev.setLink_mode (n : Nat) (x : Link) : (d.setLink n x).mode = d.mode := rfl
@[simp] theorem Dev.setLink_cyc (n : Nat) (x : Link) : (d.setLink n x).cyc = d.cyc := rfl
@[simp] theorem Dev.setLink_meas (n : Nat) (x : Link) : (d.setLink n x).meas = d.meas := rfl
@[simp] theorem Dev.setLink_cp (n : Nat) (x : Link) : (d.setLink n x).cp = d.cp := rfl
@[simp] theorem Dev.setLink_down (n : Nat) (x : Link) : (d.setLink n x).down = d.down := rfl
@[simp] theorem Dev.setLink_twin (n : Nat) (x : Link) : (d.setLink n x).twin = d.twin := rfl
@[simp] theorem Dev.setLink_sar (n : Nat) (x : Link) : (d.setLink n x).sar = d.sar := rfl
@[simp] theorem Dev.setLink_ctl (n : Nat) (x : Link) : (d.setLink n x).ctl = d.ctl := rfl
@[simp] theorem Dev.setLink_acq (n : Nat) (x : Link) : (d.setLink n x).acq = d.acq := rfl

/-! ## Dev.setTwin -/

@[simp] theorem Dev.setTwin_clk (x : Twin) : (d.setTwin x).clk = d.clk := rfl
@[simp] theorem Dev.setTwin_openIx (x : Twin) : (d.setTwin x).openIx = d.openIx := rfl
@[simp] theorem Dev.setTwin_out (x : Twin) : (d.setTwin x).out = d.out := rfl
@[simp] theorem Dev.setTwin_log (x : Twin) : (d.setTwin x).log = d.log := rfl
@[simp] theorem Dev.setTwin_boot (x : Twin) : (d.setTwin x).boot = d.boot := rfl
@[simp] theorem Dev.setTwin_flt (x : Twin) : (d.setTwin x).flt = d.flt := rfl
@[simp] theorem Dev.setTwin_sec (x : Twin) : (d.setTwin x).sec = d.sec := rfl
@[simp] theorem Dev.setTwin_par (x : Twin) : (d.setTwin x).par = d.par := rfl
@[simp] theorem Dev.setTwin_host (x : Twin) : (d.setTwin x).host = d.host := rfl
@[simp] theorem Dev.setTwin_que (x : Twin) : (d.setTwin x).que = d.que := rfl
@[simp] theorem Dev.setTwin_tim (x : Twin) : (d.setTwin x).tim = d.tim := rfl
@[simp] theorem Dev.setTwin_mode (x : Twin) : (d.setTwin x).mode = d.mode := rfl
@[simp] theorem Dev.setTwin_fab (x : Twin) : (d.setTwin x).fab = d.fab := rfl
@[simp] theorem Dev.setTwin_cyc (x : Twin) : (d.setTwin x).cyc = d.cyc := rfl
@[simp] theorem Dev.setTwin_meas (x : Twin) : (d.setTwin x).meas = d.meas := rfl
@[simp] theorem Dev.setTwin_cp (x : Twin) : (d.setTwin x).cp = d.cp := rfl
@[simp] theorem Dev.setTwin_down (x : Twin) : (d.setTwin x).down = d.down := rfl
@[simp] theorem Dev.setTwin_sar (x : Twin) : (d.setTwin x).sar = d.sar := rfl
@[simp] theorem Dev.setTwin_ctl (x : Twin) : (d.setTwin x).ctl = d.ctl := rfl
@[simp] theorem Dev.setTwin_acq (x : Twin) : (d.setTwin x).acq = d.acq := rfl

/-! ## Dev.setQp -/

@[simp] theorem Dev.setQp_clk (n : Nat) (x : Qp) : (d.setQp n x).clk = d.clk := rfl
@[simp] theorem Dev.setQp_openIx (n : Nat) (x : Qp) : (d.setQp n x).openIx = d.openIx := rfl
@[simp] theorem Dev.setQp_out (n : Nat) (x : Qp) : (d.setQp n x).out = d.out := rfl
@[simp] theorem Dev.setQp_log (n : Nat) (x : Qp) : (d.setQp n x).log = d.log := rfl
@[simp] theorem Dev.setQp_boot (n : Nat) (x : Qp) : (d.setQp n x).boot = d.boot := rfl
@[simp] theorem Dev.setQp_flt (n : Nat) (x : Qp) : (d.setQp n x).flt = d.flt := rfl
@[simp] theorem Dev.setQp_sec (n : Nat) (x : Qp) : (d.setQp n x).sec = d.sec := rfl
@[simp] theorem Dev.setQp_par (n : Nat) (x : Qp) : (d.setQp n x).par = d.par := rfl
@[simp] theorem Dev.setQp_que (n : Nat) (x : Qp) : (d.setQp n x).que = d.que := rfl
@[simp] theorem Dev.setQp_tim (n : Nat) (x : Qp) : (d.setQp n x).tim = d.tim := rfl
@[simp] theorem Dev.setQp_mode (n : Nat) (x : Qp) : (d.setQp n x).mode = d.mode := rfl
@[simp] theorem Dev.setQp_fab (n : Nat) (x : Qp) : (d.setQp n x).fab = d.fab := rfl
@[simp] theorem Dev.setQp_cyc (n : Nat) (x : Qp) : (d.setQp n x).cyc = d.cyc := rfl
@[simp] theorem Dev.setQp_meas (n : Nat) (x : Qp) : (d.setQp n x).meas = d.meas := rfl
@[simp] theorem Dev.setQp_cp (n : Nat) (x : Qp) : (d.setQp n x).cp = d.cp := rfl
@[simp] theorem Dev.setQp_down (n : Nat) (x : Qp) : (d.setQp n x).down = d.down := rfl
@[simp] theorem Dev.setQp_twin (n : Nat) (x : Qp) : (d.setQp n x).twin = d.twin := rfl
@[simp] theorem Dev.setQp_sar (n : Nat) (x : Qp) : (d.setQp n x).sar = d.sar := rfl
@[simp] theorem Dev.setQp_ctl (n : Nat) (x : Qp) : (d.setQp n x).ctl = d.ctl := rfl
@[simp] theorem Dev.setQp_acq (n : Nat) (x : Qp) : (d.setQp n x).acq = d.acq := rfl

/-! ## Dev.addInflight -/

@[simp] theorem Dev.addInflight_clk (x : Inflight) : (d.addInflight x).clk = d.clk := rfl
@[simp] theorem Dev.addInflight_openIx (x : Inflight) : (d.addInflight x).openIx = d.openIx := rfl
@[simp] theorem Dev.addInflight_out (x : Inflight) : (d.addInflight x).out = d.out := rfl
@[simp] theorem Dev.addInflight_log (x : Inflight) : (d.addInflight x).log = d.log := rfl
@[simp] theorem Dev.addInflight_boot (x : Inflight) : (d.addInflight x).boot = d.boot := rfl
@[simp] theorem Dev.addInflight_flt (x : Inflight) : (d.addInflight x).flt = d.flt := rfl
@[simp] theorem Dev.addInflight_sec (x : Inflight) : (d.addInflight x).sec = d.sec := rfl
@[simp] theorem Dev.addInflight_par (x : Inflight) : (d.addInflight x).par = d.par := rfl
@[simp] theorem Dev.addInflight_que (x : Inflight) : (d.addInflight x).que = d.que := rfl
@[simp] theorem Dev.addInflight_tim (x : Inflight) : (d.addInflight x).tim = d.tim := rfl
@[simp] theorem Dev.addInflight_mode (x : Inflight) : (d.addInflight x).mode = d.mode := rfl
@[simp] theorem Dev.addInflight_fab (x : Inflight) : (d.addInflight x).fab = d.fab := rfl
@[simp] theorem Dev.addInflight_cyc (x : Inflight) : (d.addInflight x).cyc = d.cyc := rfl
@[simp] theorem Dev.addInflight_meas (x : Inflight) : (d.addInflight x).meas = d.meas := rfl
@[simp] theorem Dev.addInflight_cp (x : Inflight) : (d.addInflight x).cp = d.cp := rfl
@[simp] theorem Dev.addInflight_down (x : Inflight) : (d.addInflight x).down = d.down := rfl
@[simp] theorem Dev.addInflight_twin (x : Inflight) : (d.addInflight x).twin = d.twin := rfl
@[simp] theorem Dev.addInflight_sar (x : Inflight) : (d.addInflight x).sar = d.sar := rfl
@[simp] theorem Dev.addInflight_ctl (x : Inflight) : (d.addInflight x).ctl = d.ctl := rfl
@[simp] theorem Dev.addInflight_acq (x : Inflight) : (d.addInflight x).acq = d.acq := rfl

/-! ## Dev.setPort -/

@[simp] theorem Dev.setPort_clk (n : Nat) (x : CellPort) : (d.setPort n x).clk = d.clk := rfl
@[simp] theorem Dev.setPort_openIx (n : Nat) (x : CellPort) : (d.setPort n x).openIx = d.openIx := rfl
@[simp] theorem Dev.setPort_out (n : Nat) (x : CellPort) : (d.setPort n x).out = d.out := rfl
@[simp] theorem Dev.setPort_log (n : Nat) (x : CellPort) : (d.setPort n x).log = d.log := rfl
@[simp] theorem Dev.setPort_boot (n : Nat) (x : CellPort) : (d.setPort n x).boot = d.boot := rfl
@[simp] theorem Dev.setPort_flt (n : Nat) (x : CellPort) : (d.setPort n x).flt = d.flt := rfl
@[simp] theorem Dev.setPort_sec (n : Nat) (x : CellPort) : (d.setPort n x).sec = d.sec := rfl
@[simp] theorem Dev.setPort_par (n : Nat) (x : CellPort) : (d.setPort n x).par = d.par := rfl
@[simp] theorem Dev.setPort_host (n : Nat) (x : CellPort) : (d.setPort n x).host = d.host := rfl
@[simp] theorem Dev.setPort_que (n : Nat) (x : CellPort) : (d.setPort n x).que = d.que := rfl
@[simp] theorem Dev.setPort_tim (n : Nat) (x : CellPort) : (d.setPort n x).tim = d.tim := rfl
@[simp] theorem Dev.setPort_mode (n : Nat) (x : CellPort) : (d.setPort n x).mode = d.mode := rfl
@[simp] theorem Dev.setPort_fab (n : Nat) (x : CellPort) : (d.setPort n x).fab = d.fab := rfl
@[simp] theorem Dev.setPort_cyc (n : Nat) (x : CellPort) : (d.setPort n x).cyc = d.cyc := rfl
@[simp] theorem Dev.setPort_meas (n : Nat) (x : CellPort) : (d.setPort n x).meas = d.meas := rfl
@[simp] theorem Dev.setPort_down (n : Nat) (x : CellPort) : (d.setPort n x).down = d.down := rfl
@[simp] theorem Dev.setPort_twin (n : Nat) (x : CellPort) : (d.setPort n x).twin = d.twin := rfl
@[simp] theorem Dev.setPort_sar (n : Nat) (x : CellPort) : (d.setPort n x).sar = d.sar := rfl
@[simp] theorem Dev.setPort_ctl (n : Nat) (x : CellPort) : (d.setPort n x).ctl = d.ctl := rfl
@[simp] theorem Dev.setPort_acq (n : Nat) (x : CellPort) : (d.setPort n x).acq = d.acq := rfl

/-! ## Dev.setCell -/

@[simp] theorem Dev.setCell_clk (n : Nat) (x : CellRec) : (d.setCell n x).clk = d.clk := rfl
@[simp] theorem Dev.setCell_openIx (n : Nat) (x : CellRec) : (d.setCell n x).openIx = d.openIx := rfl
@[simp] theorem Dev.setCell_out (n : Nat) (x : CellRec) : (d.setCell n x).out = d.out := rfl
@[simp] theorem Dev.setCell_log (n : Nat) (x : CellRec) : (d.setCell n x).log = d.log := rfl
@[simp] theorem Dev.setCell_boot (n : Nat) (x : CellRec) : (d.setCell n x).boot = d.boot := rfl
@[simp] theorem Dev.setCell_flt (n : Nat) (x : CellRec) : (d.setCell n x).flt = d.flt := rfl
@[simp] theorem Dev.setCell_sec (n : Nat) (x : CellRec) : (d.setCell n x).sec = d.sec := rfl
@[simp] theorem Dev.setCell_par (n : Nat) (x : CellRec) : (d.setCell n x).par = d.par := rfl
@[simp] theorem Dev.setCell_host (n : Nat) (x : CellRec) : (d.setCell n x).host = d.host := rfl
@[simp] theorem Dev.setCell_que (n : Nat) (x : CellRec) : (d.setCell n x).que = d.que := rfl
@[simp] theorem Dev.setCell_tim (n : Nat) (x : CellRec) : (d.setCell n x).tim = d.tim := rfl
@[simp] theorem Dev.setCell_mode (n : Nat) (x : CellRec) : (d.setCell n x).mode = d.mode := rfl
@[simp] theorem Dev.setCell_fab (n : Nat) (x : CellRec) : (d.setCell n x).fab = d.fab := rfl
@[simp] theorem Dev.setCell_meas (n : Nat) (x : CellRec) : (d.setCell n x).meas = d.meas := rfl
@[simp] theorem Dev.setCell_cp (n : Nat) (x : CellRec) : (d.setCell n x).cp = d.cp := rfl
@[simp] theorem Dev.setCell_down (n : Nat) (x : CellRec) : (d.setCell n x).down = d.down := rfl
@[simp] theorem Dev.setCell_twin (n : Nat) (x : CellRec) : (d.setCell n x).twin = d.twin := rfl
@[simp] theorem Dev.setCell_sar (n : Nat) (x : CellRec) : (d.setCell n x).sar = d.sar := rfl
@[simp] theorem Dev.setCell_ctl (n : Nat) (x : CellRec) : (d.setCell n x).ctl = d.ctl := rfl
@[simp] theorem Dev.setCell_acq (n : Nat) (x : CellRec) : (d.setCell n x).acq = d.acq := rfl

/-! ## Dev.setArm -/

@[simp] theorem Dev.setArm_clk (n : Nat) (x : ArmState) : (d.setArm n x).clk = d.clk := rfl
@[simp] theorem Dev.setArm_openIx (n : Nat) (x : ArmState) : (d.setArm n x).openIx = d.openIx := rfl
@[simp] theorem Dev.setArm_out (n : Nat) (x : ArmState) : (d.setArm n x).out = d.out := rfl
@[simp] theorem Dev.setArm_log (n : Nat) (x : ArmState) : (d.setArm n x).log = d.log := rfl
@[simp] theorem Dev.setArm_boot (n : Nat) (x : ArmState) : (d.setArm n x).boot = d.boot := rfl
@[simp] theorem Dev.setArm_flt (n : Nat) (x : ArmState) : (d.setArm n x).flt = d.flt := rfl
@[simp] theorem Dev.setArm_sec (n : Nat) (x : ArmState) : (d.setArm n x).sec = d.sec := rfl
@[simp] theorem Dev.setArm_par (n : Nat) (x : ArmState) : (d.setArm n x).par = d.par := rfl
@[simp] theorem Dev.setArm_host (n : Nat) (x : ArmState) : (d.setArm n x).host = d.host := rfl
@[simp] theorem Dev.setArm_que (n : Nat) (x : ArmState) : (d.setArm n x).que = d.que := rfl
@[simp] theorem Dev.setArm_tim (n : Nat) (x : ArmState) : (d.setArm n x).tim = d.tim := rfl
@[simp] theorem Dev.setArm_mode (n : Nat) (x : ArmState) : (d.setArm n x).mode = d.mode := rfl
@[simp] theorem Dev.setArm_fab (n : Nat) (x : ArmState) : (d.setArm n x).fab = d.fab := rfl
@[simp] theorem Dev.setArm_meas (n : Nat) (x : ArmState) : (d.setArm n x).meas = d.meas := rfl
@[simp] theorem Dev.setArm_cp (n : Nat) (x : ArmState) : (d.setArm n x).cp = d.cp := rfl
@[simp] theorem Dev.setArm_down (n : Nat) (x : ArmState) : (d.setArm n x).down = d.down := rfl
@[simp] theorem Dev.setArm_twin (n : Nat) (x : ArmState) : (d.setArm n x).twin = d.twin := rfl
@[simp] theorem Dev.setArm_sar (n : Nat) (x : ArmState) : (d.setArm n x).sar = d.sar := rfl
@[simp] theorem Dev.setArm_ctl (n : Nat) (x : ArmState) : (d.setArm n x).ctl = d.ctl := rfl
@[simp] theorem Dev.setArm_acq (n : Nat) (x : ArmState) : (d.setArm n x).acq = d.acq := rfl

/-! ## Dev.setChain -/

@[simp] theorem Dev.setChain_clk (n : Nat) (x : Chain) : (d.setChain n x).clk = d.clk := rfl
@[simp] theorem Dev.setChain_openIx (n : Nat) (x : Chain) : (d.setChain n x).openIx = d.openIx := rfl
@[simp] theorem Dev.setChain_out (n : Nat) (x : Chain) : (d.setChain n x).out = d.out := rfl
@[simp] theorem Dev.setChain_log (n : Nat) (x : Chain) : (d.setChain n x).log = d.log := rfl
@[simp] theorem Dev.setChain_boot (n : Nat) (x : Chain) : (d.setChain n x).boot = d.boot := rfl
@[simp] theorem Dev.setChain_flt (n : Nat) (x : Chain) : (d.setChain n x).flt = d.flt := rfl
@[simp] theorem Dev.setChain_sec (n : Nat) (x : Chain) : (d.setChain n x).sec = d.sec := rfl
@[simp] theorem Dev.setChain_par (n : Nat) (x : Chain) : (d.setChain n x).par = d.par := rfl
@[simp] theorem Dev.setChain_host (n : Nat) (x : Chain) : (d.setChain n x).host = d.host := rfl
@[simp] theorem Dev.setChain_que (n : Nat) (x : Chain) : (d.setChain n x).que = d.que := rfl
@[simp] theorem Dev.setChain_tim (n : Nat) (x : Chain) : (d.setChain n x).tim = d.tim := rfl
@[simp] theorem Dev.setChain_mode (n : Nat) (x : Chain) : (d.setChain n x).mode = d.mode := rfl
@[simp] theorem Dev.setChain_fab (n : Nat) (x : Chain) : (d.setChain n x).fab = d.fab := rfl
@[simp] theorem Dev.setChain_cyc (n : Nat) (x : Chain) : (d.setChain n x).cyc = d.cyc := rfl
@[simp] theorem Dev.setChain_cp (n : Nat) (x : Chain) : (d.setChain n x).cp = d.cp := rfl
@[simp] theorem Dev.setChain_down (n : Nat) (x : Chain) : (d.setChain n x).down = d.down := rfl
@[simp] theorem Dev.setChain_twin (n : Nat) (x : Chain) : (d.setChain n x).twin = d.twin := rfl
@[simp] theorem Dev.setChain_sar (n : Nat) (x : Chain) : (d.setChain n x).sar = d.sar := rfl
@[simp] theorem Dev.setChain_ctl (n : Nat) (x : Chain) : (d.setChain n x).ctl = d.ctl := rfl
@[simp] theorem Dev.setChain_acq (n : Nat) (x : Chain) : (d.setChain n x).acq = d.acq := rfl

/-! ## Dev.setReed -/

@[simp] theorem Dev.setReed_clk (n : Nat) (x : Reed) : (d.setReed n x).clk = d.clk := rfl
@[simp] theorem Dev.setReed_openIx (n : Nat) (x : Reed) : (d.setReed n x).openIx = d.openIx := rfl
@[simp] theorem Dev.setReed_out (n : Nat) (x : Reed) : (d.setReed n x).out = d.out := rfl
@[simp] theorem Dev.setReed_log (n : Nat) (x : Reed) : (d.setReed n x).log = d.log := rfl
@[simp] theorem Dev.setReed_boot (n : Nat) (x : Reed) : (d.setReed n x).boot = d.boot := rfl
@[simp] theorem Dev.setReed_flt (n : Nat) (x : Reed) : (d.setReed n x).flt = d.flt := rfl
@[simp] theorem Dev.setReed_sec (n : Nat) (x : Reed) : (d.setReed n x).sec = d.sec := rfl
@[simp] theorem Dev.setReed_par (n : Nat) (x : Reed) : (d.setReed n x).par = d.par := rfl
@[simp] theorem Dev.setReed_host (n : Nat) (x : Reed) : (d.setReed n x).host = d.host := rfl
@[simp] theorem Dev.setReed_que (n : Nat) (x : Reed) : (d.setReed n x).que = d.que := rfl
@[simp] theorem Dev.setReed_tim (n : Nat) (x : Reed) : (d.setReed n x).tim = d.tim := rfl
@[simp] theorem Dev.setReed_mode (n : Nat) (x : Reed) : (d.setReed n x).mode = d.mode := rfl
@[simp] theorem Dev.setReed_fab (n : Nat) (x : Reed) : (d.setReed n x).fab = d.fab := rfl
@[simp] theorem Dev.setReed_meas (n : Nat) (x : Reed) : (d.setReed n x).meas = d.meas := rfl
@[simp] theorem Dev.setReed_cp (n : Nat) (x : Reed) : (d.setReed n x).cp = d.cp := rfl
@[simp] theorem Dev.setReed_down (n : Nat) (x : Reed) : (d.setReed n x).down = d.down := rfl
@[simp] theorem Dev.setReed_twin (n : Nat) (x : Reed) : (d.setReed n x).twin = d.twin := rfl
@[simp] theorem Dev.setReed_sar (n : Nat) (x : Reed) : (d.setReed n x).sar = d.sar := rfl
@[simp] theorem Dev.setReed_ctl (n : Nat) (x : Reed) : (d.setReed n x).ctl = d.ctl := rfl
@[simp] theorem Dev.setReed_acq (n : Nat) (x : Reed) : (d.setReed n x).acq = d.acq := rfl

/-! ## Dev.setSarSeq -/

@[simp] theorem Dev.setSarSeq_clk (n : Nat) (x : SarSeq) : (d.setSarSeq n x).clk = d.clk := rfl
@[simp] theorem Dev.setSarSeq_openIx (n : Nat) (x : SarSeq) : (d.setSarSeq n x).openIx = d.openIx := rfl
@[simp] theorem Dev.setSarSeq_out (n : Nat) (x : SarSeq) : (d.setSarSeq n x).out = d.out := rfl
@[simp] theorem Dev.setSarSeq_log (n : Nat) (x : SarSeq) : (d.setSarSeq n x).log = d.log := rfl
@[simp] theorem Dev.setSarSeq_boot (n : Nat) (x : SarSeq) : (d.setSarSeq n x).boot = d.boot := rfl
@[simp] theorem Dev.setSarSeq_flt (n : Nat) (x : SarSeq) : (d.setSarSeq n x).flt = d.flt := rfl
@[simp] theorem Dev.setSarSeq_sec (n : Nat) (x : SarSeq) : (d.setSarSeq n x).sec = d.sec := rfl
@[simp] theorem Dev.setSarSeq_par (n : Nat) (x : SarSeq) : (d.setSarSeq n x).par = d.par := rfl
@[simp] theorem Dev.setSarSeq_host (n : Nat) (x : SarSeq) : (d.setSarSeq n x).host = d.host := rfl
@[simp] theorem Dev.setSarSeq_que (n : Nat) (x : SarSeq) : (d.setSarSeq n x).que = d.que := rfl
@[simp] theorem Dev.setSarSeq_tim (n : Nat) (x : SarSeq) : (d.setSarSeq n x).tim = d.tim := rfl
@[simp] theorem Dev.setSarSeq_mode (n : Nat) (x : SarSeq) : (d.setSarSeq n x).mode = d.mode := rfl
@[simp] theorem Dev.setSarSeq_fab (n : Nat) (x : SarSeq) : (d.setSarSeq n x).fab = d.fab := rfl
@[simp] theorem Dev.setSarSeq_cyc (n : Nat) (x : SarSeq) : (d.setSarSeq n x).cyc = d.cyc := rfl
@[simp] theorem Dev.setSarSeq_meas (n : Nat) (x : SarSeq) : (d.setSarSeq n x).meas = d.meas := rfl
@[simp] theorem Dev.setSarSeq_cp (n : Nat) (x : SarSeq) : (d.setSarSeq n x).cp = d.cp := rfl
@[simp] theorem Dev.setSarSeq_down (n : Nat) (x : SarSeq) : (d.setSarSeq n x).down = d.down := rfl
@[simp] theorem Dev.setSarSeq_twin (n : Nat) (x : SarSeq) : (d.setSarSeq n x).twin = d.twin := rfl
@[simp] theorem Dev.setSarSeq_ctl (n : Nat) (x : SarSeq) : (d.setSarSeq n x).ctl = d.ctl := rfl
@[simp] theorem Dev.setSarSeq_acq (n : Nat) (x : SarSeq) : (d.setSarSeq n x).acq = d.acq := rfl

/-! ## Dev.setSarChan -/

@[simp] theorem Dev.setSarChan_clk (n : Nat) (x : SarChan) : (d.setSarChan n x).clk = d.clk := rfl
@[simp] theorem Dev.setSarChan_openIx (n : Nat) (x : SarChan) : (d.setSarChan n x).openIx = d.openIx := rfl
@[simp] theorem Dev.setSarChan_out (n : Nat) (x : SarChan) : (d.setSarChan n x).out = d.out := rfl
@[simp] theorem Dev.setSarChan_log (n : Nat) (x : SarChan) : (d.setSarChan n x).log = d.log := rfl
@[simp] theorem Dev.setSarChan_boot (n : Nat) (x : SarChan) : (d.setSarChan n x).boot = d.boot := rfl
@[simp] theorem Dev.setSarChan_flt (n : Nat) (x : SarChan) : (d.setSarChan n x).flt = d.flt := rfl
@[simp] theorem Dev.setSarChan_sec (n : Nat) (x : SarChan) : (d.setSarChan n x).sec = d.sec := rfl
@[simp] theorem Dev.setSarChan_par (n : Nat) (x : SarChan) : (d.setSarChan n x).par = d.par := rfl
@[simp] theorem Dev.setSarChan_host (n : Nat) (x : SarChan) : (d.setSarChan n x).host = d.host := rfl
@[simp] theorem Dev.setSarChan_que (n : Nat) (x : SarChan) : (d.setSarChan n x).que = d.que := rfl
@[simp] theorem Dev.setSarChan_tim (n : Nat) (x : SarChan) : (d.setSarChan n x).tim = d.tim := rfl
@[simp] theorem Dev.setSarChan_mode (n : Nat) (x : SarChan) : (d.setSarChan n x).mode = d.mode := rfl
@[simp] theorem Dev.setSarChan_fab (n : Nat) (x : SarChan) : (d.setSarChan n x).fab = d.fab := rfl
@[simp] theorem Dev.setSarChan_cyc (n : Nat) (x : SarChan) : (d.setSarChan n x).cyc = d.cyc := rfl
@[simp] theorem Dev.setSarChan_meas (n : Nat) (x : SarChan) : (d.setSarChan n x).meas = d.meas := rfl
@[simp] theorem Dev.setSarChan_cp (n : Nat) (x : SarChan) : (d.setSarChan n x).cp = d.cp := rfl
@[simp] theorem Dev.setSarChan_down (n : Nat) (x : SarChan) : (d.setSarChan n x).down = d.down := rfl
@[simp] theorem Dev.setSarChan_twin (n : Nat) (x : SarChan) : (d.setSarChan n x).twin = d.twin := rfl
@[simp] theorem Dev.setSarChan_ctl (n : Nat) (x : SarChan) : (d.setSarChan n x).ctl = d.ctl := rfl
@[simp] theorem Dev.setSarChan_acq (n : Nat) (x : SarChan) : (d.setSarChan n x).acq = d.acq := rfl

/-! ## Dev.setRec -/

@[simp] theorem Dev.setRec_clk (x : Rec) : (d.setRec x).clk = d.clk := rfl
@[simp] theorem Dev.setRec_openIx (x : Rec) : (d.setRec x).openIx = d.openIx := rfl
@[simp] theorem Dev.setRec_out (x : Rec) : (d.setRec x).out = d.out := rfl
@[simp] theorem Dev.setRec_log (x : Rec) : (d.setRec x).log = d.log := rfl
@[simp] theorem Dev.setRec_boot (x : Rec) : (d.setRec x).boot = d.boot := rfl
@[simp] theorem Dev.setRec_flt (x : Rec) : (d.setRec x).flt = d.flt := rfl
@[simp] theorem Dev.setRec_sec (x : Rec) : (d.setRec x).sec = d.sec := rfl
@[simp] theorem Dev.setRec_par (x : Rec) : (d.setRec x).par = d.par := rfl
@[simp] theorem Dev.setRec_host (x : Rec) : (d.setRec x).host = d.host := rfl
@[simp] theorem Dev.setRec_que (x : Rec) : (d.setRec x).que = d.que := rfl
@[simp] theorem Dev.setRec_tim (x : Rec) : (d.setRec x).tim = d.tim := rfl
@[simp] theorem Dev.setRec_mode (x : Rec) : (d.setRec x).mode = d.mode := rfl
@[simp] theorem Dev.setRec_fab (x : Rec) : (d.setRec x).fab = d.fab := rfl
@[simp] theorem Dev.setRec_cyc (x : Rec) : (d.setRec x).cyc = d.cyc := rfl
@[simp] theorem Dev.setRec_meas (x : Rec) : (d.setRec x).meas = d.meas := rfl
@[simp] theorem Dev.setRec_cp (x : Rec) : (d.setRec x).cp = d.cp := rfl
@[simp] theorem Dev.setRec_down (x : Rec) : (d.setRec x).down = d.down := rfl
@[simp] theorem Dev.setRec_twin (x : Rec) : (d.setRec x).twin = d.twin := rfl
@[simp] theorem Dev.setRec_sar (x : Rec) : (d.setRec x).sar = d.sar := rfl
@[simp] theorem Dev.setRec_ctl (x : Rec) : (d.setRec x).ctl = d.ctl := rfl

/-! ## Dev.wakeBy -/

@[simp] theorem Dev.wakeBy_clk (w : WakeSource) : (d.wakeBy w).clk = d.clk := by simp only [Dev.wakeBy]; (repeat' split) <;> simp
@[simp] theorem Dev.wakeBy_openIx (w : WakeSource) : (d.wakeBy w).openIx = d.openIx := by simp only [Dev.wakeBy]; (repeat' split) <;> simp
@[simp] theorem Dev.wakeBy_boot (w : WakeSource) : (d.wakeBy w).boot = d.boot := by simp only [Dev.wakeBy]; (repeat' split) <;> simp
@[simp] theorem Dev.wakeBy_flt (w : WakeSource) : (d.wakeBy w).flt = d.flt := by simp only [Dev.wakeBy]; (repeat' split) <;> simp
@[simp] theorem Dev.wakeBy_sec (w : WakeSource) : (d.wakeBy w).sec = d.sec := by simp only [Dev.wakeBy]; (repeat' split) <;> simp
@[simp] theorem Dev.wakeBy_par (w : WakeSource) : (d.wakeBy w).par = d.par := by simp only [Dev.wakeBy]; (repeat' split) <;> simp
@[simp] theorem Dev.wakeBy_host (w : WakeSource) : (d.wakeBy w).host = d.host := by simp only [Dev.wakeBy]; (repeat' split) <;> simp
@[simp] theorem Dev.wakeBy_que (w : WakeSource) : (d.wakeBy w).que = d.que := by simp only [Dev.wakeBy]; (repeat' split) <;> simp
@[simp] theorem Dev.wakeBy_tim (w : WakeSource) : (d.wakeBy w).tim = d.tim := by simp only [Dev.wakeBy]; (repeat' split) <;> simp
@[simp] theorem Dev.wakeBy_fab (w : WakeSource) : (d.wakeBy w).fab = d.fab := by simp only [Dev.wakeBy]; (repeat' split) <;> simp
@[simp] theorem Dev.wakeBy_cyc (w : WakeSource) : (d.wakeBy w).cyc = d.cyc := by simp only [Dev.wakeBy]; (repeat' split) <;> simp
@[simp] theorem Dev.wakeBy_meas (w : WakeSource) : (d.wakeBy w).meas = d.meas := by simp only [Dev.wakeBy]; (repeat' split) <;> simp
@[simp] theorem Dev.wakeBy_cp (w : WakeSource) : (d.wakeBy w).cp = d.cp := by simp only [Dev.wakeBy]; (repeat' split) <;> simp
@[simp] theorem Dev.wakeBy_down (w : WakeSource) : (d.wakeBy w).down = d.down := by simp only [Dev.wakeBy]; (repeat' split) <;> simp
@[simp] theorem Dev.wakeBy_twin (w : WakeSource) : (d.wakeBy w).twin = d.twin := by simp only [Dev.wakeBy]; (repeat' split) <;> simp
@[simp] theorem Dev.wakeBy_sar (w : WakeSource) : (d.wakeBy w).sar = d.sar := by simp only [Dev.wakeBy]; (repeat' split) <;> simp
@[simp] theorem Dev.wakeBy_ctl (w : WakeSource) : (d.wakeBy w).ctl = d.ctl := by simp only [Dev.wakeBy]; (repeat' split) <;> simp
@[simp] theorem Dev.wakeBy_acq (w : WakeSource) : (d.wakeBy w).acq = d.acq := by simp only [Dev.wakeBy]; (repeat' split) <;> simp

/-! ## Dev.holdFrames -/

@[simp] theorem Dev.holdFrames_clk (o n : Safe) : (d.holdFrames o n).clk = d.clk := by simp only [Dev.holdFrames]; (repeat' split) <;> simp
@[simp] theorem Dev.holdFrames_openIx (o n : Safe) : (d.holdFrames o n).openIx = d.openIx := by simp only [Dev.holdFrames]; (repeat' split) <;> simp
@[simp] theorem Dev.holdFrames_out (o n : Safe) : (d.holdFrames o n).out = d.out := by simp only [Dev.holdFrames]; (repeat' split) <;> simp
@[simp] theorem Dev.holdFrames_log (o n : Safe) : (d.holdFrames o n).log = d.log := by simp only [Dev.holdFrames]; (repeat' split) <;> simp
@[simp] theorem Dev.holdFrames_boot (o n : Safe) : (d.holdFrames o n).boot = d.boot := by simp only [Dev.holdFrames]; (repeat' split) <;> simp
@[simp] theorem Dev.holdFrames_flt (o n : Safe) : (d.holdFrames o n).flt = d.flt := by simp only [Dev.holdFrames]; (repeat' split) <;> simp
@[simp] theorem Dev.holdFrames_sec (o n : Safe) : (d.holdFrames o n).sec = d.sec := by simp only [Dev.holdFrames]; (repeat' split) <;> simp
@[simp] theorem Dev.holdFrames_par (o n : Safe) : (d.holdFrames o n).par = d.par := by simp only [Dev.holdFrames]; (repeat' split) <;> simp
@[simp] theorem Dev.holdFrames_host (o n : Safe) : (d.holdFrames o n).host = d.host := by simp only [Dev.holdFrames]; (repeat' split) <;> simp
@[simp] theorem Dev.holdFrames_que (o n : Safe) : (d.holdFrames o n).que = d.que := by simp only [Dev.holdFrames]; (repeat' split) <;> simp
@[simp] theorem Dev.holdFrames_tim (o n : Safe) : (d.holdFrames o n).tim = d.tim := by simp only [Dev.holdFrames]; (repeat' split) <;> simp
@[simp] theorem Dev.holdFrames_mode (o n : Safe) : (d.holdFrames o n).mode = d.mode := by simp only [Dev.holdFrames]; (repeat' split) <;> simp
@[simp] theorem Dev.holdFrames_fab (o n : Safe) : (d.holdFrames o n).fab = d.fab := by simp only [Dev.holdFrames]; (repeat' split) <;> simp
@[simp] theorem Dev.holdFrames_cyc (o n : Safe) : (d.holdFrames o n).cyc = d.cyc := by simp only [Dev.holdFrames]; (repeat' split) <;> simp
@[simp] theorem Dev.holdFrames_meas (o n : Safe) : (d.holdFrames o n).meas = d.meas := by simp only [Dev.holdFrames]; (repeat' split) <;> simp
@[simp] theorem Dev.holdFrames_cp (o n : Safe) : (d.holdFrames o n).cp = d.cp := by simp only [Dev.holdFrames]; (repeat' split) <;> simp
@[simp] theorem Dev.holdFrames_twin (o n : Safe) : (d.holdFrames o n).twin = d.twin := by simp only [Dev.holdFrames]; (repeat' split) <;> simp
@[simp] theorem Dev.holdFrames_sar (o n : Safe) : (d.holdFrames o n).sar = d.sar := by simp only [Dev.holdFrames]; (repeat' split) <;> simp
@[simp] theorem Dev.holdFrames_ctl (o n : Safe) : (d.holdFrames o n).ctl = d.ctl := by simp only [Dev.holdFrames]; (repeat' split) <;> simp
@[simp] theorem Dev.holdFrames_acq (o n : Safe) : (d.holdFrames o n).acq = d.acq := by simp only [Dev.holdFrames]; (repeat' split) <;> simp

/-! ## Dev.safeEvents -/

@[simp] theorem Dev.safeEvents_clk (o n : Safe) : (d.safeEvents o n).clk = d.clk := by simp only [Dev.safeEvents]; (repeat' split) <;> simp
@[simp] theorem Dev.safeEvents_openIx (o n : Safe) : (d.safeEvents o n).openIx = d.openIx := by simp only [Dev.safeEvents]; (repeat' split) <;> simp
@[simp] theorem Dev.safeEvents_boot (o n : Safe) : (d.safeEvents o n).boot = d.boot := by simp only [Dev.safeEvents]; (repeat' split) <;> simp
@[simp] theorem Dev.safeEvents_flt (o n : Safe) : (d.safeEvents o n).flt = d.flt := by simp only [Dev.safeEvents]; (repeat' split) <;> simp
@[simp] theorem Dev.safeEvents_sec (o n : Safe) : (d.safeEvents o n).sec = d.sec := by simp only [Dev.safeEvents]; (repeat' split) <;> simp
@[simp] theorem Dev.safeEvents_par (o n : Safe) : (d.safeEvents o n).par = d.par := by simp only [Dev.safeEvents]; (repeat' split) <;> simp
@[simp] theorem Dev.safeEvents_host (o n : Safe) : (d.safeEvents o n).host = d.host := by simp only [Dev.safeEvents]; (repeat' split) <;> simp
@[simp] theorem Dev.safeEvents_que (o n : Safe) : (d.safeEvents o n).que = d.que := by simp only [Dev.safeEvents]; (repeat' split) <;> simp
@[simp] theorem Dev.safeEvents_tim (o n : Safe) : (d.safeEvents o n).tim = d.tim := by simp only [Dev.safeEvents]; (repeat' split) <;> simp
@[simp] theorem Dev.safeEvents_fab (o n : Safe) : (d.safeEvents o n).fab = d.fab := by simp only [Dev.safeEvents]; (repeat' split) <;> simp
@[simp] theorem Dev.safeEvents_cyc (o n : Safe) : (d.safeEvents o n).cyc = d.cyc := by simp only [Dev.safeEvents]; (repeat' split) <;> simp
@[simp] theorem Dev.safeEvents_meas (o n : Safe) : (d.safeEvents o n).meas = d.meas := by simp only [Dev.safeEvents]; (repeat' split) <;> simp
@[simp] theorem Dev.safeEvents_cp (o n : Safe) : (d.safeEvents o n).cp = d.cp := by simp only [Dev.safeEvents]; (repeat' split) <;> simp
@[simp] theorem Dev.safeEvents_twin (o n : Safe) : (d.safeEvents o n).twin = d.twin := by simp only [Dev.safeEvents]; (repeat' split) <;> simp
@[simp] theorem Dev.safeEvents_sar (o n : Safe) : (d.safeEvents o n).sar = d.sar := by simp only [Dev.safeEvents]; (repeat' split) <;> simp
@[simp] theorem Dev.safeEvents_ctl (o n : Safe) : (d.safeEvents o n).ctl = d.ctl := by simp only [Dev.safeEvents]; (repeat' split) <;> simp
@[simp] theorem Dev.safeEvents_acq (o n : Safe) : (d.safeEvents o n).acq = d.acq := by simp only [Dev.safeEvents]; (repeat' split) <;> simp

/-! ## Dev.blockCause -/

@[simp] theorem Dev.blockCause_clk (b : Nat) : (d.blockCause b).clk = d.clk := by simp only [Dev.blockCause]; (repeat' split) <;> simp
@[simp] theorem Dev.blockCause_openIx (b : Nat) : (d.blockCause b).openIx = d.openIx := by simp only [Dev.blockCause]; (repeat' split) <;> simp
@[simp] theorem Dev.blockCause_out (b : Nat) : (d.blockCause b).out = d.out := by simp only [Dev.blockCause]; (repeat' split) <;> simp
@[simp] theorem Dev.blockCause_log (b : Nat) : (d.blockCause b).log = d.log := by simp only [Dev.blockCause]; (repeat' split) <;> simp
@[simp] theorem Dev.blockCause_boot (b : Nat) : (d.blockCause b).boot = d.boot := by simp only [Dev.blockCause]; (repeat' split) <;> simp
@[simp] theorem Dev.blockCause_flt (b : Nat) : (d.blockCause b).flt = d.flt := by simp only [Dev.blockCause]; (repeat' split) <;> simp
@[simp] theorem Dev.blockCause_sec (b : Nat) : (d.blockCause b).sec = d.sec := by simp only [Dev.blockCause]; (repeat' split) <;> simp
@[simp] theorem Dev.blockCause_par (b : Nat) : (d.blockCause b).par = d.par := by simp only [Dev.blockCause]; (repeat' split) <;> simp
@[simp] theorem Dev.blockCause_host (b : Nat) : (d.blockCause b).host = d.host := by simp only [Dev.blockCause]; (repeat' split) <;> simp
@[simp] theorem Dev.blockCause_que (b : Nat) : (d.blockCause b).que = d.que := by simp only [Dev.blockCause]; (repeat' split) <;> simp
@[simp] theorem Dev.blockCause_tim (b : Nat) : (d.blockCause b).tim = d.tim := by simp only [Dev.blockCause]; (repeat' split) <;> simp
@[simp] theorem Dev.blockCause_fab (b : Nat) : (d.blockCause b).fab = d.fab := by simp only [Dev.blockCause]; (repeat' split) <;> simp
@[simp] theorem Dev.blockCause_cyc (b : Nat) : (d.blockCause b).cyc = d.cyc := by simp only [Dev.blockCause]; (repeat' split) <;> simp
@[simp] theorem Dev.blockCause_meas (b : Nat) : (d.blockCause b).meas = d.meas := by simp only [Dev.blockCause]; (repeat' split) <;> simp
@[simp] theorem Dev.blockCause_cp (b : Nat) : (d.blockCause b).cp = d.cp := by simp only [Dev.blockCause]; (repeat' split) <;> simp
@[simp] theorem Dev.blockCause_down (b : Nat) : (d.blockCause b).down = d.down := by simp only [Dev.blockCause]; (repeat' split) <;> simp
@[simp] theorem Dev.blockCause_twin (b : Nat) : (d.blockCause b).twin = d.twin := by simp only [Dev.blockCause]; (repeat' split) <;> simp
@[simp] theorem Dev.blockCause_sar (b : Nat) : (d.blockCause b).sar = d.sar := by simp only [Dev.blockCause]; (repeat' split) <;> simp
@[simp] theorem Dev.blockCause_ctl (b : Nat) : (d.blockCause b).ctl = d.ctl := by simp only [Dev.blockCause]; (repeat' split) <;> simp
@[simp] theorem Dev.blockCause_acq (b : Nat) : (d.blockCause b).acq = d.acq := by simp only [Dev.blockCause]; (repeat' split) <;> simp

/-! ## Dev.clearCause -/

@[simp] theorem Dev.clearCause_clk (b : Nat) : (d.clearCause b).clk = d.clk := rfl
@[simp] theorem Dev.clearCause_openIx (b : Nat) : (d.clearCause b).openIx = d.openIx := rfl
@[simp] theorem Dev.clearCause_out (b : Nat) : (d.clearCause b).out = d.out := rfl
@[simp] theorem Dev.clearCause_log (b : Nat) : (d.clearCause b).log = d.log := rfl
@[simp] theorem Dev.clearCause_boot (b : Nat) : (d.clearCause b).boot = d.boot := rfl
@[simp] theorem Dev.clearCause_flt (b : Nat) : (d.clearCause b).flt = d.flt := rfl
@[simp] theorem Dev.clearCause_sec (b : Nat) : (d.clearCause b).sec = d.sec := rfl
@[simp] theorem Dev.clearCause_par (b : Nat) : (d.clearCause b).par = d.par := rfl
@[simp] theorem Dev.clearCause_host (b : Nat) : (d.clearCause b).host = d.host := rfl
@[simp] theorem Dev.clearCause_que (b : Nat) : (d.clearCause b).que = d.que := rfl
@[simp] theorem Dev.clearCause_tim (b : Nat) : (d.clearCause b).tim = d.tim := rfl
@[simp] theorem Dev.clearCause_fab (b : Nat) : (d.clearCause b).fab = d.fab := rfl
@[simp] theorem Dev.clearCause_cyc (b : Nat) : (d.clearCause b).cyc = d.cyc := rfl
@[simp] theorem Dev.clearCause_meas (b : Nat) : (d.clearCause b).meas = d.meas := rfl
@[simp] theorem Dev.clearCause_cp (b : Nat) : (d.clearCause b).cp = d.cp := rfl
@[simp] theorem Dev.clearCause_down (b : Nat) : (d.clearCause b).down = d.down := rfl
@[simp] theorem Dev.clearCause_twin (b : Nat) : (d.clearCause b).twin = d.twin := rfl
@[simp] theorem Dev.clearCause_sar (b : Nat) : (d.clearCause b).sar = d.sar := rfl
@[simp] theorem Dev.clearCause_ctl (b : Nat) : (d.clearCause b).ctl = d.ctl := rfl
@[simp] theorem Dev.clearCause_acq (b : Nat) : (d.clearCause b).acq = d.acq := rfl

/-! ## Dev.fatal -/

@[simp] theorem Dev.fatal_clk (cause arg : Nat) : (d.fatal cause arg).clk = d.clk := by simp only [Dev.fatal]; (repeat' split) <;> simp
@[simp] theorem Dev.fatal_openIx (cause arg : Nat) : (d.fatal cause arg).openIx = d.openIx := by simp only [Dev.fatal]; (repeat' split) <;> simp
@[simp] theorem Dev.fatal_sec (cause arg : Nat) : (d.fatal cause arg).sec = d.sec := by simp only [Dev.fatal]; (repeat' split) <;> simp
@[simp] theorem Dev.fatal_par (cause arg : Nat) : (d.fatal cause arg).par = d.par := by simp only [Dev.fatal]; (repeat' split) <;> simp
@[simp] theorem Dev.fatal_host (cause arg : Nat) : (d.fatal cause arg).host = d.host := by simp only [Dev.fatal]; (repeat' split) <;> simp
@[simp] theorem Dev.fatal_que (cause arg : Nat) : (d.fatal cause arg).que = d.que := by simp only [Dev.fatal]; (repeat' split) <;> simp
@[simp] theorem Dev.fatal_tim (cause arg : Nat) : (d.fatal cause arg).tim = d.tim := by simp only [Dev.fatal]; (repeat' split) <;> simp
@[simp] theorem Dev.fatal_fab (cause arg : Nat) : (d.fatal cause arg).fab = d.fab := by simp only [Dev.fatal]; (repeat' split) <;> simp
@[simp] theorem Dev.fatal_meas (cause arg : Nat) : (d.fatal cause arg).meas = d.meas := by simp only [Dev.fatal]; (repeat' split) <;> simp
@[simp] theorem Dev.fatal_cp (cause arg : Nat) : (d.fatal cause arg).cp = d.cp := by simp only [Dev.fatal]; (repeat' split) <;> simp
@[simp] theorem Dev.fatal_down (cause arg : Nat) : (d.fatal cause arg).down = d.down := by simp only [Dev.fatal]; (repeat' split) <;> simp
@[simp] theorem Dev.fatal_sar (cause arg : Nat) : (d.fatal cause arg).sar = d.sar := by simp only [Dev.fatal]; (repeat' split) <;> simp
@[simp] theorem Dev.fatal_ctl (cause arg : Nat) : (d.fatal cause arg).ctl = d.ctl := by simp only [Dev.fatal]; (repeat' split) <;> simp
@[simp] theorem Dev.fatal_acq (cause arg : Nat) : (d.fatal cause arg).acq = d.acq := by simp only [Dev.fatal]; (repeat' split) <;> simp

/-! ## Dev.raiseAlarm -/

@[simp] theorem Dev.raiseAlarm_clk (row level : Nat) : (d.raiseAlarm row level).clk = d.clk := by simp only [Dev.raiseAlarm]; (repeat' split) <;> simp
@[simp] theorem Dev.raiseAlarm_openIx (row level : Nat) : (d.raiseAlarm row level).openIx = d.openIx := by simp only [Dev.raiseAlarm]; (repeat' split) <;> simp
@[simp] theorem Dev.raiseAlarm_boot (row level : Nat) : (d.raiseAlarm row level).boot = d.boot := by simp only [Dev.raiseAlarm]; (repeat' split) <;> simp
@[simp] theorem Dev.raiseAlarm_flt (row level : Nat) : (d.raiseAlarm row level).flt = d.flt := by simp only [Dev.raiseAlarm]; (repeat' split) <;> simp
@[simp] theorem Dev.raiseAlarm_par (row level : Nat) : (d.raiseAlarm row level).par = d.par := by simp only [Dev.raiseAlarm]; (repeat' split) <;> simp
@[simp] theorem Dev.raiseAlarm_host (row level : Nat) : (d.raiseAlarm row level).host = d.host := by simp only [Dev.raiseAlarm]; (repeat' split) <;> simp
@[simp] theorem Dev.raiseAlarm_que (row level : Nat) : (d.raiseAlarm row level).que = d.que := by simp only [Dev.raiseAlarm]; (repeat' split) <;> simp
@[simp] theorem Dev.raiseAlarm_tim (row level : Nat) : (d.raiseAlarm row level).tim = d.tim := by simp only [Dev.raiseAlarm]; (repeat' split) <;> simp
@[simp] theorem Dev.raiseAlarm_fab (row level : Nat) : (d.raiseAlarm row level).fab = d.fab := by simp only [Dev.raiseAlarm]; (repeat' split) <;> simp
@[simp] theorem Dev.raiseAlarm_cyc (row level : Nat) : (d.raiseAlarm row level).cyc = d.cyc := by simp only [Dev.raiseAlarm]; (repeat' split) <;> simp
@[simp] theorem Dev.raiseAlarm_meas (row level : Nat) : (d.raiseAlarm row level).meas = d.meas := by simp only [Dev.raiseAlarm]; (repeat' split) <;> simp
@[simp] theorem Dev.raiseAlarm_cp (row level : Nat) : (d.raiseAlarm row level).cp = d.cp := by simp only [Dev.raiseAlarm]; (repeat' split) <;> simp
@[simp] theorem Dev.raiseAlarm_down (row level : Nat) : (d.raiseAlarm row level).down = d.down := by simp only [Dev.raiseAlarm]; (repeat' split) <;> simp
@[simp] theorem Dev.raiseAlarm_twin (row level : Nat) : (d.raiseAlarm row level).twin = d.twin := by simp only [Dev.raiseAlarm]; (repeat' split) <;> simp
@[simp] theorem Dev.raiseAlarm_sar (row level : Nat) : (d.raiseAlarm row level).sar = d.sar := by simp only [Dev.raiseAlarm]; (repeat' split) <;> simp
@[simp] theorem Dev.raiseAlarm_ctl (row level : Nat) : (d.raiseAlarm row level).ctl = d.ctl := by simp only [Dev.raiseAlarm]; (repeat' split) <;> simp
@[simp] theorem Dev.raiseAlarm_acq (row level : Nat) : (d.raiseAlarm row level).acq = d.acq := by simp only [Dev.raiseAlarm]; (repeat' split) <;> simp

/-! ## Dev.castDone -/

@[simp] theorem Dev.castDone_clk (h : List Byte) : (d.castDone h).clk = d.clk := by simp only [Dev.castDone]; (repeat' split) <;> simp
@[simp] theorem Dev.castDone_openIx (h : List Byte) : (d.castDone h).openIx = d.openIx := by simp only [Dev.castDone]; (repeat' split) <;> simp
@[simp] theorem Dev.castDone_boot (h : List Byte) : (d.castDone h).boot = d.boot := by simp only [Dev.castDone]; (repeat' split) <;> simp
@[simp] theorem Dev.castDone_sec (h : List Byte) : (d.castDone h).sec = d.sec := by simp only [Dev.castDone]; (repeat' split) <;> simp
@[simp] theorem Dev.castDone_par (h : List Byte) : (d.castDone h).par = d.par := by simp only [Dev.castDone]; (repeat' split) <;> simp
@[simp] theorem Dev.castDone_host (h : List Byte) : (d.castDone h).host = d.host := by simp only [Dev.castDone]; (repeat' split) <;> simp
@[simp] theorem Dev.castDone_que (h : List Byte) : (d.castDone h).que = d.que := by simp only [Dev.castDone]; (repeat' split) <;> simp
@[simp] theorem Dev.castDone_tim (h : List Byte) : (d.castDone h).tim = d.tim := by simp only [Dev.castDone]; (repeat' split) <;> simp
@[simp] theorem Dev.castDone_mode (h : List Byte) : (d.castDone h).mode = d.mode := by simp only [Dev.castDone]; (repeat' split) <;> simp
@[simp] theorem Dev.castDone_fab (h : List Byte) : (d.castDone h).fab = d.fab := by simp only [Dev.castDone]; (repeat' split) <;> simp
@[simp] theorem Dev.castDone_cyc (h : List Byte) : (d.castDone h).cyc = d.cyc := by simp only [Dev.castDone]; (repeat' split) <;> simp
@[simp] theorem Dev.castDone_meas (h : List Byte) : (d.castDone h).meas = d.meas := by simp only [Dev.castDone]; (repeat' split) <;> simp
@[simp] theorem Dev.castDone_cp (h : List Byte) : (d.castDone h).cp = d.cp := by simp only [Dev.castDone]; (repeat' split) <;> simp
@[simp] theorem Dev.castDone_down (h : List Byte) : (d.castDone h).down = d.down := by simp only [Dev.castDone]; (repeat' split) <;> simp
@[simp] theorem Dev.castDone_twin (h : List Byte) : (d.castDone h).twin = d.twin := by simp only [Dev.castDone]; (repeat' split) <;> simp
@[simp] theorem Dev.castDone_sar (h : List Byte) : (d.castDone h).sar = d.sar := by simp only [Dev.castDone]; (repeat' split) <;> simp
@[simp] theorem Dev.castDone_ctl (h : List Byte) : (d.castDone h).ctl = d.ctl := by simp only [Dev.castDone]; (repeat' split) <;> simp
@[simp] theorem Dev.castDone_acq (h : List Byte) : (d.castDone h).acq = d.acq := by simp only [Dev.castDone]; (repeat' split) <;> simp

/-! ## Dev.mapOut -/

@[simp] theorem Dev.mapOut_clk (page : Nat) : (d.mapOut page).clk = d.clk := by simp only [Dev.mapOut]; (repeat' split) <;> simp
@[simp] theorem Dev.mapOut_openIx (page : Nat) : (d.mapOut page).openIx = d.openIx := by simp only [Dev.mapOut]; (repeat' split) <;> simp
@[simp] theorem Dev.mapOut_boot (page : Nat) : (d.mapOut page).boot = d.boot := by simp only [Dev.mapOut]; (repeat' split) <;> simp
@[simp] theorem Dev.mapOut_sec (page : Nat) : (d.mapOut page).sec = d.sec := by simp only [Dev.mapOut]; (repeat' split) <;> simp
@[simp] theorem Dev.mapOut_par (page : Nat) : (d.mapOut page).par = d.par := by simp only [Dev.mapOut]; (repeat' split) <;> simp
@[simp] theorem Dev.mapOut_host (page : Nat) : (d.mapOut page).host = d.host := by simp only [Dev.mapOut]; (repeat' split) <;> simp
@[simp] theorem Dev.mapOut_que (page : Nat) : (d.mapOut page).que = d.que := by simp only [Dev.mapOut]; (repeat' split) <;> simp
@[simp] theorem Dev.mapOut_tim (page : Nat) : (d.mapOut page).tim = d.tim := by simp only [Dev.mapOut]; (repeat' split) <;> simp
@[simp] theorem Dev.mapOut_mode (page : Nat) : (d.mapOut page).mode = d.mode := by simp only [Dev.mapOut]; (repeat' split) <;> simp
@[simp] theorem Dev.mapOut_fab (page : Nat) : (d.mapOut page).fab = d.fab := by simp only [Dev.mapOut]; (repeat' split) <;> simp
@[simp] theorem Dev.mapOut_cyc (page : Nat) : (d.mapOut page).cyc = d.cyc := by simp only [Dev.mapOut]; (repeat' split) <;> simp
@[simp] theorem Dev.mapOut_meas (page : Nat) : (d.mapOut page).meas = d.meas := by simp only [Dev.mapOut]; (repeat' split) <;> simp
@[simp] theorem Dev.mapOut_cp (page : Nat) : (d.mapOut page).cp = d.cp := by simp only [Dev.mapOut]; (repeat' split) <;> simp
@[simp] theorem Dev.mapOut_down (page : Nat) : (d.mapOut page).down = d.down := by simp only [Dev.mapOut]; (repeat' split) <;> simp
@[simp] theorem Dev.mapOut_twin (page : Nat) : (d.mapOut page).twin = d.twin := by simp only [Dev.mapOut]; (repeat' split) <;> simp
@[simp] theorem Dev.mapOut_sar (page : Nat) : (d.mapOut page).sar = d.sar := by simp only [Dev.mapOut]; (repeat' split) <;> simp
@[simp] theorem Dev.mapOut_ctl (page : Nat) : (d.mapOut page).ctl = d.ctl := by simp only [Dev.mapOut]; (repeat' split) <;> simp
@[simp] theorem Dev.mapOut_acq (page : Nat) : (d.mapOut page).acq = d.acq := by simp only [Dev.mapOut]; (repeat' split) <;> simp

/-! ## Dev.damageCast -/

@[simp] theorem Dev.damageCast_clk (page : Nat) : (d.damageCast page).clk = d.clk := by simp only [Dev.damageCast]; (repeat' split) <;> simp
@[simp] theorem Dev.damageCast_openIx (page : Nat) : (d.damageCast page).openIx = d.openIx := by simp only [Dev.damageCast]; (repeat' split) <;> simp
@[simp] theorem Dev.damageCast_out (page : Nat) : (d.damageCast page).out = d.out := by simp only [Dev.damageCast]; (repeat' split) <;> simp
@[simp] theorem Dev.damageCast_log (page : Nat) : (d.damageCast page).log = d.log := by simp only [Dev.damageCast]; (repeat' split) <;> simp
@[simp] theorem Dev.damageCast_boot (page : Nat) : (d.damageCast page).boot = d.boot := by simp only [Dev.damageCast]; (repeat' split) <;> simp
@[simp] theorem Dev.damageCast_sec (page : Nat) : (d.damageCast page).sec = d.sec := by simp only [Dev.damageCast]; (repeat' split) <;> simp
@[simp] theorem Dev.damageCast_par (page : Nat) : (d.damageCast page).par = d.par := by simp only [Dev.damageCast]; (repeat' split) <;> simp
@[simp] theorem Dev.damageCast_host (page : Nat) : (d.damageCast page).host = d.host := by simp only [Dev.damageCast]; (repeat' split) <;> simp
@[simp] theorem Dev.damageCast_que (page : Nat) : (d.damageCast page).que = d.que := by simp only [Dev.damageCast]; (repeat' split) <;> simp
@[simp] theorem Dev.damageCast_tim (page : Nat) : (d.damageCast page).tim = d.tim := by simp only [Dev.damageCast]; (repeat' split) <;> simp
@[simp] theorem Dev.damageCast_mode (page : Nat) : (d.damageCast page).mode = d.mode := by simp only [Dev.damageCast]; (repeat' split) <;> simp
@[simp] theorem Dev.damageCast_fab (page : Nat) : (d.damageCast page).fab = d.fab := by simp only [Dev.damageCast]; (repeat' split) <;> simp
@[simp] theorem Dev.damageCast_cyc (page : Nat) : (d.damageCast page).cyc = d.cyc := by simp only [Dev.damageCast]; (repeat' split) <;> simp
@[simp] theorem Dev.damageCast_meas (page : Nat) : (d.damageCast page).meas = d.meas := by simp only [Dev.damageCast]; (repeat' split) <;> simp
@[simp] theorem Dev.damageCast_cp (page : Nat) : (d.damageCast page).cp = d.cp := by simp only [Dev.damageCast]; (repeat' split) <;> simp
@[simp] theorem Dev.damageCast_down (page : Nat) : (d.damageCast page).down = d.down := by simp only [Dev.damageCast]; (repeat' split) <;> simp
@[simp] theorem Dev.damageCast_twin (page : Nat) : (d.damageCast page).twin = d.twin := by simp only [Dev.damageCast]; (repeat' split) <;> simp
@[simp] theorem Dev.damageCast_sar (page : Nat) : (d.damageCast page).sar = d.sar := by simp only [Dev.damageCast]; (repeat' split) <;> simp
@[simp] theorem Dev.damageCast_ctl (page : Nat) : (d.damageCast page).ctl = d.ctl := by simp only [Dev.damageCast]; (repeat' split) <;> simp
@[simp] theorem Dev.damageCast_acq (page : Nat) : (d.damageCast page).acq = d.acq := by simp only [Dev.damageCast]; (repeat' split) <;> simp

/-! ## Dev.poolCheck -/

@[simp] theorem Dev.poolCheck_clk : d.poolCheck.clk = d.clk := by simp only [Dev.poolCheck]; (repeat' split) <;> simp
@[simp] theorem Dev.poolCheck_openIx : d.poolCheck.openIx = d.openIx := by simp only [Dev.poolCheck]; (repeat' split) <;> simp
@[simp] theorem Dev.poolCheck_boot : d.poolCheck.boot = d.boot := by simp only [Dev.poolCheck]; (repeat' split) <;> simp
@[simp] theorem Dev.poolCheck_flt : d.poolCheck.flt = d.flt := by simp only [Dev.poolCheck]; (repeat' split) <;> simp
@[simp] theorem Dev.poolCheck_sec : d.poolCheck.sec = d.sec := by simp only [Dev.poolCheck]; (repeat' split) <;> simp
@[simp] theorem Dev.poolCheck_par : d.poolCheck.par = d.par := by simp only [Dev.poolCheck]; (repeat' split) <;> simp
@[simp] theorem Dev.poolCheck_host : d.poolCheck.host = d.host := by simp only [Dev.poolCheck]; (repeat' split) <;> simp
@[simp] theorem Dev.poolCheck_tim : d.poolCheck.tim = d.tim := by simp only [Dev.poolCheck]; (repeat' split) <;> simp
@[simp] theorem Dev.poolCheck_mode : d.poolCheck.mode = d.mode := by simp only [Dev.poolCheck]; (repeat' split) <;> simp
@[simp] theorem Dev.poolCheck_fab : d.poolCheck.fab = d.fab := by simp only [Dev.poolCheck]; (repeat' split) <;> simp
@[simp] theorem Dev.poolCheck_cyc : d.poolCheck.cyc = d.cyc := by simp only [Dev.poolCheck]; (repeat' split) <;> simp
@[simp] theorem Dev.poolCheck_meas : d.poolCheck.meas = d.meas := by simp only [Dev.poolCheck]; (repeat' split) <;> simp
@[simp] theorem Dev.poolCheck_cp : d.poolCheck.cp = d.cp := by simp only [Dev.poolCheck]; (repeat' split) <;> simp
@[simp] theorem Dev.poolCheck_down : d.poolCheck.down = d.down := by simp only [Dev.poolCheck]; (repeat' split) <;> simp
@[simp] theorem Dev.poolCheck_twin : d.poolCheck.twin = d.twin := by simp only [Dev.poolCheck]; (repeat' split) <;> simp
@[simp] theorem Dev.poolCheck_sar : d.poolCheck.sar = d.sar := by simp only [Dev.poolCheck]; (repeat' split) <;> simp
@[simp] theorem Dev.poolCheck_ctl : d.poolCheck.ctl = d.ctl := by simp only [Dev.poolCheck]; (repeat' split) <;> simp
@[simp] theorem Dev.poolCheck_acq : d.poolCheck.acq = d.acq := by simp only [Dev.poolCheck]; (repeat' split) <;> simp

/-! ## Dev.setQueue -/

@[simp] theorem Dev.setQueue_clk (n : Nat) (x : Queue) (free : Nat) : (d.setQueue n x free).clk = d.clk := by simp only [Dev.setQueue]; (repeat' split) <;> simp
@[simp] theorem Dev.setQueue_openIx (n : Nat) (x : Queue) (free : Nat) : (d.setQueue n x free).openIx = d.openIx := by simp only [Dev.setQueue]; (repeat' split) <;> simp
@[simp] theorem Dev.setQueue_boot (n : Nat) (x : Queue) (free : Nat) : (d.setQueue n x free).boot = d.boot := by simp only [Dev.setQueue]; (repeat' split) <;> simp
@[simp] theorem Dev.setQueue_flt (n : Nat) (x : Queue) (free : Nat) : (d.setQueue n x free).flt = d.flt := by simp only [Dev.setQueue]; (repeat' split) <;> simp
@[simp] theorem Dev.setQueue_sec (n : Nat) (x : Queue) (free : Nat) : (d.setQueue n x free).sec = d.sec := by simp only [Dev.setQueue]; (repeat' split) <;> simp
@[simp] theorem Dev.setQueue_par (n : Nat) (x : Queue) (free : Nat) : (d.setQueue n x free).par = d.par := by simp only [Dev.setQueue]; (repeat' split) <;> simp
@[simp] theorem Dev.setQueue_host (n : Nat) (x : Queue) (free : Nat) : (d.setQueue n x free).host = d.host := by simp only [Dev.setQueue]; (repeat' split) <;> simp
@[simp] theorem Dev.setQueue_tim (n : Nat) (x : Queue) (free : Nat) : (d.setQueue n x free).tim = d.tim := by simp only [Dev.setQueue]; (repeat' split) <;> simp
@[simp] theorem Dev.setQueue_mode (n : Nat) (x : Queue) (free : Nat) : (d.setQueue n x free).mode = d.mode := by simp only [Dev.setQueue]; (repeat' split) <;> simp
@[simp] theorem Dev.setQueue_fab (n : Nat) (x : Queue) (free : Nat) : (d.setQueue n x free).fab = d.fab := by simp only [Dev.setQueue]; (repeat' split) <;> simp
@[simp] theorem Dev.setQueue_cyc (n : Nat) (x : Queue) (free : Nat) : (d.setQueue n x free).cyc = d.cyc := by simp only [Dev.setQueue]; (repeat' split) <;> simp
@[simp] theorem Dev.setQueue_meas (n : Nat) (x : Queue) (free : Nat) : (d.setQueue n x free).meas = d.meas := by simp only [Dev.setQueue]; (repeat' split) <;> simp
@[simp] theorem Dev.setQueue_cp (n : Nat) (x : Queue) (free : Nat) : (d.setQueue n x free).cp = d.cp := by simp only [Dev.setQueue]; (repeat' split) <;> simp
@[simp] theorem Dev.setQueue_down (n : Nat) (x : Queue) (free : Nat) : (d.setQueue n x free).down = d.down := by simp only [Dev.setQueue]; (repeat' split) <;> simp
@[simp] theorem Dev.setQueue_twin (n : Nat) (x : Queue) (free : Nat) : (d.setQueue n x free).twin = d.twin := by simp only [Dev.setQueue]; (repeat' split) <;> simp
@[simp] theorem Dev.setQueue_sar (n : Nat) (x : Queue) (free : Nat) : (d.setQueue n x free).sar = d.sar := by simp only [Dev.setQueue]; (repeat' split) <;> simp
@[simp] theorem Dev.setQueue_ctl (n : Nat) (x : Queue) (free : Nat) : (d.setQueue n x free).ctl = d.ctl := by simp only [Dev.setQueue]; (repeat' split) <;> simp
@[simp] theorem Dev.setQueue_acq (n : Nat) (x : Queue) (free : Nat) : (d.setQueue n x free).acq = d.acq := by simp only [Dev.setQueue]; (repeat' split) <;> simp

/-! ## Dev.journalFails -/

@[simp] theorem Dev.journalFails_clk : d.journalFails.clk = d.clk := by simp only [Dev.journalFails]; (repeat' split) <;> simp
@[simp] theorem Dev.journalFails_openIx : d.journalFails.openIx = d.openIx := by simp only [Dev.journalFails]; (repeat' split) <;> simp
@[simp] theorem Dev.journalFails_boot : d.journalFails.boot = d.boot := by simp only [Dev.journalFails]; (repeat' split) <;> simp
@[simp] theorem Dev.journalFails_flt : d.journalFails.flt = d.flt := by simp only [Dev.journalFails]; (repeat' split) <;> simp
@[simp] theorem Dev.journalFails_sec : d.journalFails.sec = d.sec := by simp only [Dev.journalFails]; (repeat' split) <;> simp
@[simp] theorem Dev.journalFails_par : d.journalFails.par = d.par := by simp only [Dev.journalFails]; (repeat' split) <;> simp
@[simp] theorem Dev.journalFails_host : d.journalFails.host = d.host := by simp only [Dev.journalFails]; (repeat' split) <;> simp
@[simp] theorem Dev.journalFails_que : d.journalFails.que = d.que := by simp only [Dev.journalFails]; (repeat' split) <;> simp
@[simp] theorem Dev.journalFails_tim : d.journalFails.tim = d.tim := by simp only [Dev.journalFails]; (repeat' split) <;> simp
@[simp] theorem Dev.journalFails_mode : d.journalFails.mode = d.mode := by simp only [Dev.journalFails]; (repeat' split) <;> simp
@[simp] theorem Dev.journalFails_fab : d.journalFails.fab = d.fab := by simp only [Dev.journalFails]; (repeat' split) <;> simp
@[simp] theorem Dev.journalFails_cyc : d.journalFails.cyc = d.cyc := by simp only [Dev.journalFails]; (repeat' split) <;> simp
@[simp] theorem Dev.journalFails_meas : d.journalFails.meas = d.meas := by simp only [Dev.journalFails]; (repeat' split) <;> simp
@[simp] theorem Dev.journalFails_cp : d.journalFails.cp = d.cp := by simp only [Dev.journalFails]; (repeat' split) <;> simp
@[simp] theorem Dev.journalFails_down : d.journalFails.down = d.down := by simp only [Dev.journalFails]; (repeat' split) <;> simp
@[simp] theorem Dev.journalFails_twin : d.journalFails.twin = d.twin := by simp only [Dev.journalFails]; (repeat' split) <;> simp
@[simp] theorem Dev.journalFails_sar : d.journalFails.sar = d.sar := by simp only [Dev.journalFails]; (repeat' split) <;> simp
@[simp] theorem Dev.journalFails_ctl : d.journalFails.ctl = d.ctl := by simp only [Dev.journalFails]; (repeat' split) <;> simp
@[simp] theorem Dev.journalFails_acq : d.journalFails.acq = d.acq := by simp only [Dev.journalFails]; (repeat' split) <;> simp

/-! ## Dev.commit -/

@[simp] theorem Dev.commit_clk (n : Nat) (final : Bool) : (d.commit n final).clk = d.clk := rfl
@[simp] theorem Dev.commit_openIx (n : Nat) (final : Bool) : (d.commit n final).openIx = d.openIx := rfl
@[simp] theorem Dev.commit_out (n : Nat) (final : Bool) : (d.commit n final).out = d.out := rfl
@[simp] theorem Dev.commit_boot (n : Nat) (final : Bool) : (d.commit n final).boot = d.boot := rfl
@[simp] theorem Dev.commit_flt (n : Nat) (final : Bool) : (d.commit n final).flt = d.flt := rfl
@[simp] theorem Dev.commit_sec (n : Nat) (final : Bool) : (d.commit n final).sec = d.sec := rfl
@[simp] theorem Dev.commit_par (n : Nat) (final : Bool) : (d.commit n final).par = d.par := rfl
@[simp] theorem Dev.commit_host (n : Nat) (final : Bool) : (d.commit n final).host = d.host := rfl
@[simp] theorem Dev.commit_que (n : Nat) (final : Bool) : (d.commit n final).que = d.que := rfl
@[simp] theorem Dev.commit_tim (n : Nat) (final : Bool) : (d.commit n final).tim = d.tim := rfl
@[simp] theorem Dev.commit_mode (n : Nat) (final : Bool) : (d.commit n final).mode = d.mode := rfl
@[simp] theorem Dev.commit_fab (n : Nat) (final : Bool) : (d.commit n final).fab = d.fab := rfl
@[simp] theorem Dev.commit_cyc (n : Nat) (final : Bool) : (d.commit n final).cyc = d.cyc := rfl
@[simp] theorem Dev.commit_meas (n : Nat) (final : Bool) : (d.commit n final).meas = d.meas := rfl
@[simp] theorem Dev.commit_cp (n : Nat) (final : Bool) : (d.commit n final).cp = d.cp := rfl
@[simp] theorem Dev.commit_down (n : Nat) (final : Bool) : (d.commit n final).down = d.down := rfl
@[simp] theorem Dev.commit_twin (n : Nat) (final : Bool) : (d.commit n final).twin = d.twin := rfl
@[simp] theorem Dev.commit_sar (n : Nat) (final : Bool) : (d.commit n final).sar = d.sar := rfl
@[simp] theorem Dev.commit_ctl (n : Nat) (final : Bool) : (d.commit n final).ctl = d.ctl := rfl
@[simp] theorem Dev.commit_acq (n : Nat) (final : Bool) : (d.commit n final).acq = d.acq := rfl

end Sys2Proof.Machine
end

