-- ==== Sys2Proof/Laws/Ops.lean ====
section
/-!
SUPPORT. Laws/Ops.lean: what each shared operation can do, said once.
-/
namespace Sys2Proof.Machine

open Sys2Proof

/-! ## Commands at their instant -/

theorem State.upd_true (s : State) (t : Nat) (f : State → Dev → Dev) :
    s.upd t true f = .next { s with dev := s.dev.until t (f s (s.at t).dev) } := rfl

theorem State.upd_wf (s : State) (t : Nat) (wf : Bool) (f : State → Dev → Dev) (h : wf = true) :
    s.upd t wf f = .next { s with dev := s.dev.until t (f s (s.at t).dev) } := by subst h; rfl

theorem State.updAll_true (s : State) (t : Nat) (f : State → State) :
    s.updAll t true f = .next (s.until t (f (s.at t))) := rfl

theorem State.updAll_wf (s : State) (t : Nat) (wf : Bool) (f : State → State) (h : wf = true) :
    s.updAll t wf f = .next (s.until t (f (s.at t))) := by subst h; rfl

@[simp] theorem State.until_safe (s s' : State) (t : Nat) : (s.until t s').safe = s'.safe := rfl
@[simp] theorem State.until_otp (s s' : State) (t : Nat) : (s.until t s').otp = s'.otp := rfl
@[simp] theorem State.until_flash (s s' : State) (t : Nat) : (s.until t s').flash = s'.flash := rfl
@[simp] theorem State.until_dev (s s' : State) (t : Nat) : (s.until t s').dev = s.dev.until t s'.dev := rfl
@[simp] theorem State.until_pending (s s' : State) (t : Nat) : (s.until t s').pending = s.pending := rfl

/-! ## Transmitters -/

/-- What every step of a fold keeps, the fold keeps. -/
theorem foldl_keeps {α β : Type} (P : β → Prop) (f : β → α → β) (h : ∀ b a, P b → P (f b a)) (l : List α) (b : β) (hb : P b) :
    P (l.foldl f b) := by
  induction l generalizing b with
  | nil => exact hb
  | cons a r ih => exact ih _ (h b a hb)

/-- The cell ports' transmitters change their own registers and the outputs. -/
theorem Dev.runDown_eq (d : Dev) (tx : Tx) : ∃ x o, d.runDown tx = { d with down := x, out := o } := by
  refine foldl_keeps (fun (e : Dev) => ∃ x o, e = { d with down := x, out := o }) _ ?_ d.down d ⟨d.down, d.out, rfl⟩
  rintro e c ⟨x, o, rfl⟩
  dsimp only
  split
  · exact ⟨x, o, rfl⟩
  · split
    · exact ⟨_, _, rfl⟩
    · exact ⟨_, o, rfl⟩

/-- A block that starts on a lane changes the fabric, the outputs and how many open values have been drawn. -/
theorem Dev.startOn_eq (d : Dev) (n at_ : Nat) (b : FabBlock) (again : Bool) :
    ∃ f o i, d.startOn n at_ b again = { d with fab := f, out := o, openIx := i } := by
  unfold Dev.startOn
  simp only [Dev.emit, Dev.setLane]
  split <;> split <;> exact ⟨_, _, _, rfl⟩

/-- The chosen block of a port changes no other part. -/
theorem Dev.begin_eq (d : Dev) (p : Nat) (c : TxCand) :
    ∃ f o i, d.begin p c = { d with fab := f, out := o, openIx := i } := by
  have u : ∀ (d : Dev) a b, ∃ f, d.useShare p a b = { d with fab := f } := fun d a b => ⟨_, rfl⟩
  have k : ∀ (d : Dev) (f : Fabric) a n b again, ∃ f' o i,
      ({ d with fab := f } : Dev).startOn a n b again = { d with fab := f', out := o, openIx := i } := by
    intro d f a n b again
    obtain ⟨f', o, i, h⟩ := Dev.startOn_eq { d with fab := f } a n b again
    exact ⟨f', o, i, by rw [h]⟩
  unfold Dev.begin
  cases c.pick with
  | item i x => exact k d _ _ _ _ _
  | again =>
    simp only
    split
    · obtain ⟨f, h⟩ := u (d.setLink p { d.link p with again := (d.link p).again - 1 }) c.start (by assumption : TxBlock).unit.bulk
      rw [h]; exact k d _ _ _ _ _
    · exact ⟨d.fab, d.out, d.openIx, rfl⟩
  | first b =>
    simp only
    obtain ⟨f, h⟩ := u (d.setLink p { d.link p with
      queue := (d.link p).queue.erase b, unacked := (d.link p).unacked ++ [b],
      sentAt := if (d.link p).unacked.isEmpty then c.start / 160 else (d.link p).sentAt }) c.start b.unit.bulk
    rw [h]; exact k d _ _ _ _ _

theorem Dev.runPort_eq (p n : Nat) (d : Dev) : ∃ f o i, Dev.runPort p n d = { d with fab := f, out := o, openIx := i } := by
  induction n generalizing d with
  | zero => exact ⟨d.fab, d.out, d.openIx, rfl⟩
  | succ n ih =>
    unfold Dev.runPort
    split
    · split
      · obtain ⟨f, o, i, h⟩ := Dev.begin_eq d p (by assumption)
        obtain ⟨f', o', i', h'⟩ := ih (d.begin p (by assumption))
        exact ⟨f', o', i', by rw [h', h]⟩
      · exact ⟨d.fab, d.out, d.openIx, rfl⟩
    · exact ⟨d.fab, d.out, d.openIx, rfl⟩

/-- The lanes' transmitters change the fabric, the outputs and how many open values have been drawn. -/
theorem Dev.runLanes_eq (d : Dev) : ∃ f o i, d.runLanes = { d with fab := f, out := o, openIx := i } := by
  refine foldl_keeps (fun (e : Dev) => ∃ f o i, e = { d with fab := f, out := o, openIx := i }) _ ?_ [0, 1, 2, 3] d
    ⟨d.fab, d.out, d.openIx, rfl⟩
  rintro e c ⟨f, o, i, rfl⟩
  dsimp only
  obtain ⟨f', o', i', h'⟩ := Dev.runPort_eq c ((Dev.link { d with fab := f, out := o, openIx := i } c).tx.length
    + (Dev.link { d with fab := f, out := o, openIx := i } c).queue.length + (Dev.link { d with fab := f, out := o, openIx := i } c).again)
    { d with fab := f, out := o, openIx := i }
  exact ⟨f', o', i', h'⟩

/-- The state at an instant: own time, and what the transmitters change. -/
theorem State.at_eq (s : State) (t : Nat) :
    ∃ f o i x, s.at t = { s with dev := { s.dev with clk := max s.dev.clk t, fab := f, out := o, openIx := i, down := x } } := by
  obtain ⟨f, o, i, h⟩ := Dev.runLanes_eq (s.dev.at t)
  obtain ⟨x, o', h'⟩ := Dev.runDown_eq ((s.dev.at t).runLanes) s.tx
  exact ⟨f, o', i, x, by unfold State.at; rw [h', h]; rfl⟩

@[simp] theorem State.at_safe (s : State) (t : Nat) : (s.at t).safe = s.safe := by
  obtain ⟨_, _, _, _, h⟩ := State.at_eq s t; rw [h]
@[simp] theorem State.at_otp (s : State) (t : Nat) : (s.at t).otp = s.otp := by
  obtain ⟨_, _, _, _, h⟩ := State.at_eq s t; rw [h]
@[simp] theorem State.at_flash (s : State) (t : Nat) : (s.at t).flash = s.flash := by
  obtain ⟨_, _, _, _, h⟩ := State.at_eq s t; rw [h]
@[simp] theorem State.at_pending (s : State) (t : Nat) : (s.at t).pending = s.pending := by
  obtain ⟨_, _, _, _, h⟩ := State.at_eq s t; rw [h]
@[simp] theorem State.at_clk (s : State) (t : Nat) : (s.at t).dev.clk = max s.dev.clk t := by
  obtain ⟨_, _, _, _, h⟩ := State.at_eq s t; rw [h]
@[simp] theorem State.at_log (s : State) (t : Nat) : (s.at t).dev.log = s.dev.log := by
  obtain ⟨_, _, _, _, h⟩ := State.at_eq s t; rw [h]
@[simp] theorem State.at_boot (s : State) (t : Nat) : (s.at t).dev.boot = s.dev.boot := by
  obtain ⟨_, _, _, _, h⟩ := State.at_eq s t; rw [h]
@[simp] theorem State.at_flt (s : State) (t : Nat) : (s.at t).dev.flt = s.dev.flt := by
  obtain ⟨_, _, _, _, h⟩ := State.at_eq s t; rw [h]
@[simp] theorem State.at_sec (s : State) (t : Nat) : (s.at t).dev.sec = s.dev.sec := by
  obtain ⟨_, _, _, _, h⟩ := State.at_eq s t; rw [h]
@[simp] theorem State.at_par (s : State) (t : Nat) : (s.at t).dev.par = s.dev.par := by
  obtain ⟨_, _, _, _, h⟩ := State.at_eq s t; rw [h]
@[simp] theorem State.at_host (s : State) (t : Nat) : (s.at t).dev.host = s.dev.host := by
  obtain ⟨_, _, _, _, h⟩ := State.at_eq s t; rw [h]
@[simp] theorem State.at_que (s : State) (t : Nat) : (s.at t).dev.que = s.dev.que := by
  obtain ⟨_, _, _, _, h⟩ := State.at_eq s t; rw [h]
@[simp] theorem State.at_tim (s : State) (t : Nat) : (s.at t).dev.tim = s.dev.tim := by
  obtain ⟨_, _, _, _, h⟩ := State.at_eq s t; rw [h]
@[simp] theorem State.at_mode (s : State) (t : Nat) : (s.at t).dev.mode = s.dev.mode := by
  obtain ⟨_, _, _, _, h⟩ := State.at_eq s t; rw [h]
@[simp] theorem State.at_cyc (s : State) (t : Nat) : (s.at t).dev.cyc = s.dev.cyc := by
  obtain ⟨_, _, _, _, h⟩ := State.at_eq s t; rw [h]
@[simp] theorem State.at_meas (s : State) (t : Nat) : (s.at t).dev.meas = s.dev.meas := by
  obtain ⟨_, _, _, _, h⟩ := State.at_eq s t; rw [h]
@[simp] theorem State.at_cp (s : State) (t : Nat) : (s.at t).dev.cp = s.dev.cp := by
  obtain ⟨_, _, _, _, h⟩ := State.at_eq s t; rw [h]
@[simp] theorem State.at_twin (s : State) (t : Nat) : (s.at t).dev.twin = s.dev.twin := by
  obtain ⟨_, _, _, _, h⟩ := State.at_eq s t; rw [h]
@[simp] theorem State.at_sar (s : State) (t : Nat) : (s.at t).dev.sar = s.dev.sar := by
  obtain ⟨_, _, _, _, h⟩ := State.at_eq s t; rw [h]
@[simp] theorem State.at_ctl (s : State) (t : Nat) : (s.at t).dev.ctl = s.dev.ctl := by
  obtain ⟨_, _, _, _, h⟩ := State.at_eq s t; rw [h]
@[simp] theorem State.at_acq (s : State) (t : Nat) : (s.at t).dev.acq = s.dev.acq := by
  obtain ⟨_, _, _, _, h⟩ := State.at_eq s t; rw [h]

/-! ## Keyed tables -/

/-- A value after a value was set. -/
theorem Tab.get_set {α : Type} (d : α) (t : Tab α) (k j : Nat) (v : α) :
    (t.set k v).get d j = if j = k then v else t.get d j := by
  induction t with
  | nil => simp [Tab.set, Tab.get]
  | cons c r ih =>
    obtain ⟨i, w⟩ := c
    unfold Tab.set
    split
    · simp [Tab.get]
    · split
      · rename_i h; subst h; simp only [Tab.get]; split <;> simp_all
      · rename_i h
        simp only [Tab.get, ih]
        by_cases hj : j = i
        · subst hj; simp [Ne.symm h]
        · simp [hj]

@[simp] theorem Tab.get_set_self {α : Type} (d : α) (t : Tab α) (k : Nat) (v : α) : (t.set k v).get d k = v := by
  simp [Tab.get_set]

/-- What is listed after a value was set. -/
theorem Tab.find_set {α : Type} (t : Tab α) (k j : Nat) (v : α) : (t.set k v).find j = if j = k then some v else t.find j := by
  induction t with
  | nil => simp [Tab.set, Tab.find]
  | cons c r ih =>
    obtain ⟨i, w⟩ := c
    unfold Tab.set
    split
    · simp [Tab.find]
    · split
      · rename_i h; subst h; simp only [Tab.find]; split <;> simp_all
      · rename_i h
        simp only [Tab.find, ih]
        by_cases hj : j = i
        · subst hj; simp [Ne.symm h]
        · simp [hj]

/-! ## Events -/

theorem natLE_bytesLE (n x : Nat) : natLE (bytesLE n x) = x % 256 ^ n := by
  induction n generalizing x with
  | zero => simp [bytesLE, natLE, Nat.mod_one]
  | succ n ih =>
    simp only [bytesLE, natLE, ih, BitVec.toNat_ofNat]
    rw [show 2 ^ 8 = 256 from rfl, show 256 ^ (n + 1) = 256 * 256 ^ n from by rw [Nat.pow_succ, Nat.mul_comm], Nat.mod_mul]

@[simp] theorem bytesLE_length (n x : Nat) : (bytesLE n x).length = n := by
  induction n generalizing x with
  | zero => rfl
  | succ n ih => simp [bytesLE, ih]

/-- The entry that an event of four argument bytes adds. -/
def Dev.raised (d : Dev) (code arg : Nat) : Entry :=
  d.entry code (d.log.supp.get 0 code) (BitVec.ofNat 32 arg) false

theorem Dev.raise_log (d : Dev) (code arg : Nat) :
    (d.raise code arg).log =
      { (d.log.push (d.raised code arg)).count code (severity code) with
        supp := d.log.supp.set code 0
        framedAt := if severity code < d.host.evtFilter then d.log.framedAt else d.clk } := by
  have h : (bytesLE 4 arg).take 4 = bytesLE 4 arg := List.take_of_length_le (by simp)
  have h' : (bytesLE 4 arg).drop 4 = [] := List.drop_eq_nil_of_le (by simp)
  have e : BitVec.ofNat 32 (natLE (bytesLE 4 arg)) = BitVec.ofNat 32 arg := by
    rw [natLE_bytesLE]; apply BitVec.eq_of_toNat_eq; simp
  unfold Dev.raise Dev.raiseB
  rw [h, h', e]
  simp [chunks28, Dev.raised, Dev.entry]
  simp [Log.count, Log.push]

@[simp] theorem Log.count_buffer (l : Log) (code sev : Nat) : (l.count code sev).buffer = l.buffer := rfl
@[simp] theorem Log.count_nextSeq (l : Log) (code sev : Nat) : (l.count code sev).nextSeq = l.nextSeq := rfl

@[simp] theorem Dev.raise_buffer (d : Dev) (code arg : Nat) :
    (d.raise code arg).log.buffer = d.log.buffer ++ [d.raised code arg] := by rw [Dev.raise_log]; rfl
@[simp] theorem Dev.raise_nextSeq (d : Dev) (code arg : Nat) :
    (d.raise code arg).log.nextSeq = d.log.nextSeq + 1 := by rw [Dev.raise_log]; rfl
@[simp] theorem Dev.raise_jmem (d : Dev) (code arg : Nat) : (d.raise code arg).log.jmem = d.log.jmem := by
  rw [Dev.raise_log]; simp [Log.count, Log.push]
@[simp] theorem Dev.raised_code (d : Dev) (code arg : Nat) : (d.raised code arg).code = code := rfl
@[simp] theorem Dev.raised_sev (d : Dev) (code arg : Nat) : (d.raised code arg).sev = severity code := rfl
@[simp] theorem Dev.raised_arg (d : Dev) (code arg : Nat) : (d.raised code arg).arg = BitVec.ofNat 32 arg := rfl
@[simp] theorem Dev.raised_seq (d : Dev) (code arg : Nat) : (d.raised code arg).seq = d.log.nextSeq := rfl

/-- Raising an event on a device whose log is that of `s` logs it. -/
theorem logged_of_raise {s s' : State} {d : Dev} {code arg : Nat} (h : d.log = s.dev.log)
    (h' : s'.dev.log = (d.raise code arg).log) : Logged code arg s s' :=
  ⟨d.raised code arg, by rw [h', Dev.raise_buffer, h], rfl, rfl, rfl, by simp [h], by rw [h', Dev.raise_nextSeq, h]⟩

/-! ## Addressed memories -/

theorem memRead_nil (a : Nat) : memRead [] a = 0 := rfl

/-- A read after a write. -/
theorem memRead_memWrite (m : List Host.Cell) (hm : memWf m = true) (a b : Nat) (v : Byte) :
    memRead (memWrite m a v) b = if b = a then v else memRead m b := by
  induction m with
  | nil =>
    unfold memWrite
    by_cases h : v = 0 <;> by_cases hb : b = a <;> simp_all [memRead]
  | cons c r ih =>
    obtain ⟨x, w⟩ := c
    have hlow : ∀ (r : List Host.Cell) (x : Nat) (w : Byte), memWf ((x, w) :: r) = true → ∀ y ≤ x, y ≠ x → memRead ((x, w) :: r) y = 0 := by
      intro r
      induction r with
      | nil => intro x w _ y _ hne; simp [memRead, hne]
      | cons c r ihr =>
        intro x w h y hy hne
        obtain ⟨x', w'⟩ := c
        simp only [memWf, Bool.and_eq_true, decide_eq_true_eq] at h
        have := ihr x' w' h.2 y (by omega) (by omega)
        simp only [memRead, hne, if_false] at this ⊢
        exact this
    have hr : memWf r = true := by
      cases r with
      | nil => rfl
      | cons c r => obtain ⟨x', w'⟩ := c; simp only [memWf, Bool.and_eq_true] at hm; exact hm.2
    have hrx : ∀ y ≤ x, memRead r y = 0 := by
      intro y hy
      cases r with
      | nil => rfl
      | cons c r =>
        obtain ⟨x', w'⟩ := c
        have h' := hm
        simp only [memWf, Bool.and_eq_true, decide_eq_true_eq] at h'
        exact hlow r x' w' h'.2 y (by omega) (by omega)
    unfold memWrite
    split
    · rename_i hlt
      by_cases hb : b = a
      · subst hb
        have := hlow r x w hm b (by omega) (by omega)
        split <;> simp_all [memRead]
      · split
        · simp
        · simp [memRead, hb]
    · split
      · rename_i hne heq
        subst heq
        by_cases hb : b = a
        · subst hb
          split
          · rename_i hv; simp [hv, hrx b (Nat.le_refl b)]
          · simp [memRead]
        · split <;> simp [memRead, hb]
      · rename_i h1 h2
        simp only [memRead, ih hr]
        by_cases hb : b = x
        · subst hb; simp [Ne.symm h2]
        · simp [hb]

theorem memWf_tail {c : Host.Cell} {r : List Host.Cell} (h : memWf (c :: r) = true) : memWf r = true := by
  obtain ⟨x, w⟩ := c
  cases r with
  | nil => rfl
  | cons c' r => obtain ⟨x', w'⟩ := c'; simp only [memWf, Bool.and_eq_true] at h; exact h.2

/-- The canonical form with a lower bound: what `memWf` says, in a form that recursion can use. -/
theorem memWf_cons (x : Nat) (w : Byte) (r : List Host.Cell) :
    memWf ((x, w) :: r) = true ↔ w ≠ 0 ∧ memWf r = true ∧ ∀ c ∈ r.head?, x < c.1 := by
  cases r with
  | nil => simp [memWf]
  | cons c r =>
    obtain ⟨y, v⟩ := c
    simp only [memWf, Bool.and_eq_true, decide_eq_true_eq, bne_iff_ne, ne_eq, List.head?_cons, Option.mem_def, Option.some.injEq,
      forall_eq', and_assoc]
    constructor
    · rintro ⟨a, b, c⟩; exact ⟨a, c, b⟩
    · rintro ⟨a, b, c⟩; exact ⟨a, c, b⟩

/-- The least address of a memory after a write. -/
theorem memWrite_head (m : List Host.Cell) (a : Nat) (v : Byte) (n : Nat) (hm : memWf m = true) (h : ∀ c ∈ m.head?, n < c.1) (ha : n < a) :
    ∀ c ∈ (memWrite m a v).head?, n < c.1 := by
  cases m with
  | nil => unfold memWrite; split <;> simp_all
  | cons c r =>
    obtain ⟨x, w⟩ := c
    have hx : n < x := by simpa using h
    rw [memWf_cons] at hm
    unfold memWrite
    split
    · split <;> simp_all
    · split
      · split
        · intro c hc; exact Nat.lt_trans hx (hm.2.2 c hc)
        · simp_all
      · simpa using hx

/-- A write keeps the canonical form. -/
theorem memWf_memWrite (m : List Host.Cell) (a : Nat) (v : Byte) (hm : memWf m = true) : memWf (memWrite m a v) = true := by
  induction m with
  | nil => unfold memWrite; split <;> simp_all [memWf]
  | cons c r ih =>
    obtain ⟨x, w⟩ := c
    have h := hm
    rw [memWf_cons] at h
    unfold memWrite
    split
    · split
      · exact hm
      · rw [memWf_cons]; exact ⟨by assumption, hm, by simpa⟩
    · split
      · rename_i h2
        subst h2
        split
        · exact h.2.1
        · rw [memWf_cons]; exact ⟨by assumption, h.2⟩
      · rw [memWf_cons]
        exact ⟨h.1, ih h.2.1, memWrite_head r a v x h.2.1 h.2.2 (by omega)⟩

/-- A write of several bytes keeps the canonical form. -/
theorem memWf_memWriteN (bs : List Byte) (m : List Host.Cell) (a : Nat) (hm : memWf m = true) : memWf (memWriteN m a bs) = true := by
  induction bs generalizing m a with
  | nil => exact hm
  | cons b bs ih => exact ih _ _ (memWf_memWrite m a b hm)

/-- A byte after a write of several: inside the written span the byte written, elsewhere the byte before. -/
theorem memRead_memWriteN (bs : List Byte) (m : List Host.Cell) (a b : Nat) (hm : memWf m = true) :
    memRead (memWriteN m a bs) b = if a ≤ b ∧ b < a + bs.length then bs.getD (b - a) 0 else memRead m b := by
  induction bs generalizing m a with
  | nil => first | (simp [memWriteN]; done) | (simp [memWriteN]; omega)
  | cons x bs ih =>
    rw [memWriteN, ih _ _ (memWf_memWrite m a x hm), memRead_memWrite m hm]
    by_cases h : b = a
    · subst h
      rw [if_neg (by omega), if_pos rfl, if_pos (by simp), Nat.sub_self]; rfl
    · by_cases h' : a + 1 ≤ b ∧ b < a + 1 + bs.length
      · have e : b - a = (b - (a + 1)) + 1 := by omega
        have g : a ≤ b ∧ b < a + (x :: bs).length := by simp; omega
        simp only [h', g, if_true, and_self, e]; simp
      · have g : ¬ (a ≤ b ∧ b < a + (x :: bs).length) := by simp; omega
        simp only [h', g, h, if_false]

/-! ## Host commands -/

/-- A command that the device accepts runs its body and is answered. -/
theorem Dev.runCmd_accepts (d : Dev) (c : CmdRef) (op : Nat) (body : Dev → Dev × CmdResult) (h : d.accepts c op) :
    d.runCmd c op body = (body d).1.complete c op (body d).2 := by
  unfold Dev.runCmd; rw [h.1, h.2.1]; rfl

/-- A command that a fence holds back waits. -/
theorem Dev.runCmd_fenced (d : Dev) (c : CmdRef) (op : Nat) (body : Dev → Dev × CmdResult)
    (h : fenceWaits c d.host.inflight false = true) : d.runCmd c op body = d := by
  unfold Dev.runCmd; rw [h]; rfl

/-- A command that a check refuses is answered with the check's status and has no other effect. -/
theorem Dev.runCmd_refused (d : Dev) (c : CmdRef) (op st : Nat) (body : Dev → Dev × CmdResult)
    (h : fenceWaits c d.host.inflight false = false) (h' : d.precheck c op = some st) :
    d.runCmd c op body = d.complete c op (stRes st) := by
  unfold Dev.runCmd; rw [h, h']; rfl

theorem Dev.startCmd_accepts (d : Dev) (c : CmdRef) (op : Nat) (body : Dev → Dev × Option CmdResult) (h : d.accepts c op) :
    d.startCmd c op body = match body d with
      | (d', some r) => d'.complete c op r
      | (d', none) => d' := by
  unfold Dev.startCmd; rw [h.1, h.2.1]; rfl

/-- With its data transfers in order, a command is answered with its own result. -/
theorem Dev.complete_ok (d : Dev) (c : CmdRef) (op : Nat) (r : CmdResult) (h : c.xfer = .ok) :
    d.complete c op r = { d with host := { d.host with inflight := setResult c op r d.host.inflight } } := by
  simp [Dev.complete, h]

/-- Whether a command may start does not depend on the instant. -/
theorem Dev.accepts_at (d : Dev) (t : Nat) (c : CmdRef) (op : Nat) (h : d.accepts c op) : (d.at t).accepts c op := h

end Sys2Proof.Machine
end

