-- ==== Sys2Proof/Laws/Safety.lean ====
section
/-!
SUPPORT. Laws/Safety.lean: what the shared operation of the safety rows can do: the unit settled, its events, its frame.
-/
namespace Sys2Proof.Machine

open Sys2Proof

/-- A frame from its three parts. -/
theorem only_of {ps : List Part} {t : Nat} {s s' : State} (h1 : s'.pending = s.pending) (h2 : s'.dev.clk = max s.dev.clk t)
    (h : ∀ p : Part, p ∉ ps → p.kept (s.at t) s') : Only ps t s s' := by unfold Only; exact ⟨h1, h2, h⟩

/-- The journal buffer only gains entries. -/
def Grows (d d' : Dev) : Prop := ∃ es, d'.log.buffer = d.log.buffer ++ es
theorem Grows.rfl {d : Dev} : Grows d d := ⟨[], by simp⟩
theorem Grows.of_eq {d d' : Dev} (h : d'.log = d.log) : Grows d d' := ⟨[], by simp [h]⟩
theorem Grows.trans {a b c : Dev} (h : Grows a b) (h' : Grows b c) : Grows a c := by
  obtain ⟨x, hx⟩ := h; obtain ⟨y, hy⟩ := h'; exact ⟨x ++ y, by rw [hy, hx, List.append_assoc]⟩
theorem Grows.raise (d : Dev) (c a : Nat) : Grows d (d.raise c a) := ⟨_, Dev.raise_buffer d c a⟩
theorem Grows.raise' {x d : Dev} (h : Grows x d) (c a : Nat) : Grows x (d.raise c a) := h.trans (Grows.raise d c a)
theorem Grows.wakeBy (d : Dev) (w) : Grows d (d.wakeBy w) := by
  simp only [Dev.wakeBy]
  split <;> (try split) <;> (try split) <;> (try split) <;> first | exact Grows.rfl | exact ⟨_, by rw [Dev.raise_buffer]⟩
/-- An event raised between two growths of the buffer has been raised. -/
theorem raised_of {code : Nat} {s s' : State} {d : Dev} (a : Nat) (h0 : Grows s.dev d) (h1 : Grows (d.raise code a) s'.dev) : Raised code s s' := by
  obtain ⟨x, hx⟩ := h0; obtain ⟨y, hy⟩ := h1
  refine ⟨x ++ [d.raised code a] ++ y, ?_, d.raised code a, by simp, rfl⟩
  rw [hy, Dev.raise_buffer, hx]; simp

/-- What a safety update of a powered unit answers: the unit settled, its events, and nothing else. -/
theorem safeUpd_eq (s : State) (t : Nat) (f) (ev) (h : s.safe.powered = true) :
  s.safeUpd t true f ev = .next (s.until t { safe := (f (s.now t) s.safe).settle s.safe (s.now t), otp := s.otp, flash := s.flash, dev := (ev s.safe ((f (s.now t) s.safe).settle s.safe (s.now t)) (s.at t).dev).safeEvents s.safe ((f (s.now t) s.safe).settle s.safe (s.now t)), pending := s.pending }) := by
  simp [State.safeUpd, State.updAll_true, h, State.now]

@[simp] theorem settle_st (u o : Safe) (t) : (u.settle o t).st = u.st := rfl
@[simp] theorem settle_a (u o : Safe) (t) : (u.settle o t).a = { u.a with request := u.a.st != 0 || !u.pllLocked || !u.a.tested } := rfl
@[simp] theorem settle_b (u o : Safe) (t) : (u.settle o t).b = { u.b with request := u.b.st != 0 || !u.b.tested } := rfl

theorem holdFrames_log (d : Dev) (o n : Safe) : (d.holdFrames o n).log = d.log := by unfold Dev.holdFrames; split <;> rfl

/-- No change of state raises nothing. -/
theorem safeEvents_same (d : Dev) (o n : Safe) (h : o.st = n.st) : d.safeEvents o n = d.holdFrames o n := by simp [Dev.safeEvents, h]

/-- Settling sets the block requests as Table 13-3 says, whatever the unit was. -/
theorem blocks_settle (u o : Safe) (t) : (u.settle o t).Blocks := ⟨rfl, rfl⟩

/-- A fault settles into SAFE_FAULT with its cause, unless a lasting one is in force. -/
theorem faulted_settle (u o : Safe) (cause idx t : Nat) (h : ¬ u.lasting) : ((u.fault cause idx).settle o t).Faulted cause idx := by
  have h' : ¬ (u.st = 2 ∧ u.recovery = none) := h
  refine ⟨rfl, rfl, rfl, rfl, ?_, ?_, ?_, ?_⟩
  · simp [Safe.settle, Safe.st, Safe.fault]
  · simp only [Safe.settle, Safe.fault]; rw [if_neg h']
  · simp only [Safe.settle, Safe.fault]; rw [if_neg h']
  · have e : ((u.fault cause idx).settle o t).out = (if u.hold then 4 else 0) + 16 * (if u.hold then 4 else 0) := by
      simp [Safe.settle, Safe.fault, Safe.outOf]; first | rfl | (by_cases hh : u.hold <;> simp [hh])
    rw [e]; cases u.hold <;> decide

/-- The entry into SAFE_FAULT raises its event. -/
theorem safeEvents_fault (d : Dev) (o n : Safe) (h : n.st = 2) (h' : o.st ≠ 2) : Grows (d.raise Ev.SAFE_FAULT n.cause) (d.safeEvents o n) := by
  simp only [Dev.safeEvents, h, h', if_false, if_true]
  refine Grows.trans ?_ (Grows.wakeBy _ _)
  exact Grows.of_eq (holdFrames_log _ o n)

/-- The events of a change of state only add entries. -/
theorem safeEvents_grows (d : Dev) (o n : Safe) : Grows d (d.safeEvents o n) := by
  have e : ∀ x : Dev, Grows x ((x.holdFrames o n).emit (.irq 10)) := fun x => Grows.of_eq (holdFrames_log x o n)
  simp only [Dev.safeEvents]
  split
  · exact Grows.of_eq (holdFrames_log d o n)
  · refine Grows.trans ?_ (Grows.wakeBy _ _)
    refine Grows.trans ?_ (e _)
    split
    · exact Grows.raise _ _ _
    · split
      · exact Grows.raise _ _ _
      · split
        · exact Grows.raise _ _ _
        · exact Grows.rfl

/-- The frame of a safety update. -/
theorem only_safe (s : State) (t : Nat) (n : Safe) (d : Dev) (o : Safe)
    (h : ∀ p : Part, p ∉ [Part.safe, .log, .out, .down, .mode] → p.kept (s.at t) { s.at t with dev := d }) :
    Only [.safe, .log, .out, .down, .mode] t s (s.until t { s.at t with safe := n, dev := d.safeEvents o n }) := by
  refine only_of rfl rfl ?_
  intro p hp
  have := h p hp
  cases p <;> simp_all [Part.kept]

end Sys2Proof.Machine
end

