-- ==== Sys2Proof/Laws/WellFormed.lean ====
section
/-!
SUPPORT. Laws/WellFormed.lean: a command that names an object the device does not have is answered by the fault noSuchObject and
has no effect.
-/
namespace Sys2Proof.Machine

open Sys2Proof

/-- An ill-formed command faults. -/
theorem ill_formed_faults (i : Instr) (s : State) (h : i.wf = false) : exec i s = .fault .noSuchObject := by
  cases i <;> first | exact Bool.noConfusion h | exact if_neg (Bool.eq_false_iff.mp h)

end Sys2Proof.Machine
end

