-- ==== Sys2Proof/Tests/Slice0.lean ====
section
/-!
SUPPORT. Tests/Slice0.lean: the model's own small tests. `wit_<statement>` shows, clause by clause, a state and operands that
meet the hypotheses of that statement; `test_<what>` compares one step with a value worked out from the manual.
-/
namespace Sys2Proof.Tests

open Sys2Proof Sys2Proof.Machine

/-- A state with this device, else as reset leaves it. -/
def ofDev (d : Dev) : State := { State.reset with dev := d }

/-- A device with power, past its boot. -/
def run0 : Dev := { boot := { vin := true, resetL := false, ioRails := true, started := true, operational := true } }

/-- A host command on queue pair 0. -/
def c0 : CmdRef := { gw := none, qp := 0, tag := 1 }

/-- Inputs of a boot with the straps' seven bits. -/
def inputs (straps : Nat) : BootInputs :=
  { ioRails := true, refclk := true, straps := List.replicate 8 straps, readsAgree := true, pcieTrains := false, fabricImage := [],
    dramTrained := true, journalWorks := true, journalTorn := false }

/-! ## Steps, supply, boot -/

theorem wit_StepRunsTheFrontCommand : ({ State.reset with pending := [.powerUp 0] } : State).pending = .powerUp 0 :: [] := by decide

theorem wit_SupplyComesAndGoes : State.reset.dev.boot.vin = false ∧ State.reset.safe.powered = false ∧ (ofDev run0).dev.boot.vin = true ∧ (1 < 12 ∧ 2 ≤ 2) := by
  decide

/-- An image of one section whose header fields pass; what it signs is the manual's. -/
def img : Image := [0x54, 0x47, 0x57, 0x48, 1, 0, 1, 1]

theorem wit_ResetPinsStartTheRom_reset :
    let s := ofDev run0
    s.dev.boot.vin = true ∧ s.dev.log.running = false
      ∧ (ofDev { run0 with log := { running := true } }).dev.log.running = true := by decide

def atReset : State := ofDev { boot := { vin := true }, par := { copy0 := { good := true }, copy1 := { good := true } } }

theorem wit_ResetPinsStartTheRom_release :
    let s := atReset
    s.dev.boot.vin = true ∧ s.dev.boot.started = false ∧ s.otp.erasing = false ∧ s.otp.lifecycle ≠ 3 ∧ s.dev.boot.resetWaits = false
      ∧ (∀ p ∈ [(0, 0), (32, 1), (127, 3)], let b := inputs p.1
          b.straps.length = 8 ∧ strapValue b.straps = some p.1 ∧ fieldN p.1 5 2 = p.2 ∧ b.refclk = true ∧ b.ioRails = true ∧ b.readsAgree = true
            ∧ b.dramTrained = true ∧ b.journalTorn = false ∧ b.pcieTrains = false)
      ∧ s.flash.slots = [] ∧ s.dev.par.copy0.good = true ∧ s.dev.par.copy1.good = true := by decide

/-- The image passes where its signature and its section do. -/
theorem wit_ResetPinsStartTheRom_image (s : State) (h : s = { atReset with flash := { slots := [(0, img)] } })
    (hv : ∀ k d g, Config.ecdsaVerify k d g = true) (hs : Image.sectionOk atReset.otp img 0 = true) :
    s.flash.slots.find s.flash.active = some img ∧ imageCheck s.otp img = none := by
  subst h
  refine ⟨rfl, ?_⟩
  have h1 : (List.range (img.field 7 1)).all (Image.sectionOk atReset.otp img) = true := by
    have : List.range (img.field 7 1) = [0] := by decide
    rw [this]; simp [hs]
  unfold imageCheck
  simp only [hv, h1]
  decide

theorem wit_ResetPinsStartTheRom_rails :
    (ofDev { run0 with boot := { vin := true, resetL := false } }).dev.boot.resetL = false
      ∧ (ofDev { boot := { vin := true, resetWaits := true } }).dev.boot.resetWaits = true := by decide

theorem wit_BootEndsOperationalOrFails :
    let d : Dev := { boot := { vin := true, started := true, hasImage := true } }
    let d' : Dev := { d with boot := { d.boot with sv := 1, slot := 0, fallback := true } }
    let s' := { ofDev d' with flash := { byActivate := true } }
    d.mayOperate = true ∧ (ofDev d).advances = false ∧ s'.dev.mayOperate = true ∧ s'.advances = true ∧ s'.dev.boot.fallback = true
      ∧ d.boot.operational = false ∧ d.boot.failed = false ∧ d.boot.began + ticksOfMs 2000 ≤ (ofDev d).now 1250000000 := by decide

theorem wit_FatalFaultsStopTheDevice :
    let d := run0
    let e : Dev := { run0 with flt := { castHead := some [1], cause := 2 } }
    let f : Dev := { e with flt := { e.flt with cast0 := some ⟨0, 2, [], false⟩ } }
    d.boot.started = true ∧ d.flt.stopped = false ∧ d.mode.power ≠ .rest ∧ d.twin.role ≠ .solo
      ∧ ({ d with twin := { role := .solo } } : Dev).twin.role = .solo ∧ (1 ≤ 7 ∧ 3 < 4)
      ∧ (inputs 0).straps.length = 8 ∧ e.flt.castHead = some [1] ∧ e.pv P.sys_fatal_restart = 0 ∧ e.flt.cause ≠ 5
      ∧ (e.mode.doms.get {} 8).faulty = false ∧ e.flt.cast0 = none ∧ f.flt.cast0 ≠ none ∧ f.pv P.sys_fatal_restart = 0 := by decide

theorem wit_JournalCommitsAndPowerFail_pwrfail :
    let d := run0
    (d.boot.pwrfail = false ∧ d.boot.vin = true ∧ d.boot.started = true)
      ∧ ({ d with log := { running := true } } : Dev).log.running = true ∧ d.boot.resetWaits = false
      ∧ ({ d with boot := { d.boot with pwrfail := true } } : Dev).boot.pwrfail = true := by decide

theorem wit_JournalCommitsAndPowerFail_regular :
    let d := run0
    d.boot.operational = true ∧ d.boot.pwrfail = false ∧ d.mode.power ≠ .rest
      ∧ d.log.lastCommit + ticksOfMs (d.pn P.sys_journal_ms) ≤ (ofDev d).now 12500000000 ∧ memWf d.log.jmem = true
      ∧ d.log.jpos < d.log.area ∧ 8272 ≤ d.log.area := by decide

theorem wit_JournalCommitsAndPowerFail_full (e : Entry) :
    256 ≤ ({ run0 with log := { buffer := List.replicate 256 e } } : Dev).log.buffer.length :=
  Nat.le_of_eq List.length_replicate.symm

/-! ## Safety -/

/-- A channel past its start-up test with these levels accepted and at the receiver. -/
def chan (st : Nat) (lv : Tab Bool) : SafeChan := { st := st, tested := true, request := st != 0, raw := lv, acc := lv, cfg := 0xD5B }

/-- Every input high. -/
def high : Tab Bool := (List.range 16).map fun k => (k, true)

/-- A powered, sealed safety unit in the given state. -/
def safe (st : Nat) (lv : Tab Bool) : Safe := { powered := true, pllLocked := true, cfgSealed := some 0xD5B, a := chan st lv, b := chan st lv }

/-- The block requests are as Table 13-3 has them. -/
def settled (u : Safe) : Bool := u.a.request == (u.a.st != 0 || !u.pllLocked || !u.a.tested) && u.b.request == (u.b.st != 0 || !u.b.tested)

theorem settled_blocks (u : Safe) (h : settled u = true) : u.Blocks := by
  simp only [settled, Bool.and_eq_true, beq_iff_eq] at h; exact h

theorem wit_SafetyStartUpSealsOrFaults :
    let s := { State.reset with safe := { powered := true, b := { tested := true, cfg := 0xD5B } } }
    s.safe.powered = true ∧ 0xD5B < 4096 ∧ (s.safe.chan .a).tested = false ∧ bitN s.safe.testRes 0 = false ∧ ¬ (s.safe.st = 2 ∧ s.safe.recovery = none)
      ∧ cfgValid 0xD5B = true ∧ (s.safe.chan .b).tested = true ∧ (s.safe.chan .b).cfg = 0xD5B ∧ (s.safe.chan .b).cfg ≠ 0xD5A
      ∧ cfgValid 0xD5A = true ∧ cfgValid 4095 = false ∧ s.dev.tim.running = false := by decide

theorem wit_SafetyInputsAreFilteredAndBlock :
    let n := { State.reset with safe := safe 0 high }
    let p := { State.reset with safe := { safe 0 high with a := { chan 0 high with raw := high.set 0 false } } }
    settled n.safe = true ∧ settled p.safe = true ∧ n.safe.powered = true ∧ (SafePin.sin 0 false).ok = true ∧ (SafePin.sin 7 true).ok = true ∧ (n.safe.a.raw.get false (SafePin.sin 0 false).key ≠ false)
      ∧ p.now 593749 < (p.safe.chan .a).since.get 0 0 + filterLow p.safe.cfg
      ∧ p.safe.cfgSealed ≠ none ∧ (p.safe.chan .a).since.get 0 0 + filterLow p.safe.cfg ≤ p.now 593750
      ∧ p.safe.a.st = 0 ∧ p.safe.b.st = 0 ∧ p.safe.recovery = none ∧ (p.safe.chan .a).raw.get false 0 = false ∧ (p.safe.chan .a).level 0 = true := by
  decide

theorem wit_SafetyDiagnosticsFaultOrPass :
    let s := { State.reset with safe := { safe 0 high with pairOpen := [(7, true)], tripSince := some 0, silentA := some 0, out := 0x33 } }
    let d := { s.safe with a := { s.safe.a with badReads := 2 }, cfgSealed := some 0x69B }
    settled s.safe = true ∧ settled d = true ∧ s.safe.powered = true ∧ ¬ (s.safe.st = 2 ∧ s.safe.recovery = none) ∧ s.safe.cfgSealed ≠ none ∧ s.safe.pairOpen.get false 7 = true
      ∧ s.safe.latchedA.get false 7 = false
      ∧ s.safe.pairSince.get 0 7 + ticksOfMs (discMs s.safe.cfg) ≤ s.now (ticksOfMs 50) + ticksOfUs 100
      ∧ s.safe.pairSince.get 0 7 + ticksOfMs (discMs s.safe.cfg) * 106 / 100 + ticksOfUs 200 ≤ s.now (ticksOfMs 54)
      ∧ s.safe.tripSince = some 0 ∧ s.safe.tripOn = true ∧ 0 + ticksOfMs (discMs s.safe.cfg) ≤ s.now (ticksOfMs 50)
      ∧ ({ s.safe with a := chan 0 [] } : Safe).bothPins 7 true = false
      ∧ (s.safe.chan .a).badReads < 2 ∧ (d.chan .a).badReads = 2 ∧ d.testedMode = true ∧ bitN d.out (1 + 4 * bit01 false) = true
      ∧ s.safe.a.st = s.safe.b.st ∧ s.safe.a.edge = none ∧ s.safe.b.edge = none ∧ s.safe.silentA = some 0 ∧ 0 + ticksOfUs 100 ≤ s.now (ticksOfUs 100) := by
  decide

/-- Both channels in SAFE, SRST_A released, SRST_B asserted at instant 0 and released after 100 ms. -/
def resetting : Safe :=
  let a := { chan 1 (high.set 17 true) with
    raw := high.set 17 false, since := [(17, 62500000)], srstOn := [(17, some 0)], srstLen := [(16, some 62500000)], srstRel := [(16, 62500000)] }
  { safe 1 high with a := a, b := { chan 1 high with edge := some 62500000 } }

theorem wit_SafetyRestartAndHold_edge :
    let s := { State.reset with safe := resetting }
    let c := s.safe.chan .a
    let t := 63093750
    settled s.safe = true ∧ s.safe.powered = true ∧ s.safe.cfgSealed ≠ none ∧ c.raw.get false 17 = false ∧ c.level 17 = true ∧ c.since.get 0 17 + filterLow s.safe.cfg ≤ s.now t
      ∧ c.st = 1 ∧ c.srstOn.get none 17 = some 0 ∧ c.level 16 = false ∧ c.srstLen.get none 16 ≠ none
      ∧ ({ c with acc := c.acc.set 17 false, srstLen := c.srstLen.set 17 (some (s.now t - 0)), srstRel := c.srstRel.set 17 (s.now t),
                  srstOn := c.srstOn.set 17 none } : SafeChan).edgeOk s.safe.tripOn = true
      ∧ (s.safe.chan .b).st = 1 ∧ (s.safe.chan .b).edge = some 62500000 ∧ s.now t ≤ 62500000 + ticksOfMs 10 := by decide

theorem wit_SafetyRestartAndHold_stuck_hold :
    let lv := (high.set 12 false).set 13 false
    let s := { State.reset with safe := { safe 1 lv with a := { chan 1 lv with srstOn := [(16, some 0)] } } }
    settled s.safe = true ∧ (s.safe.chan .a).srstOn.get none (16 + bit01 false) = some 0 ∧ 0 + ticksOfMs 5000 ≤ s.now 3125000000
      ∧ s.safe.holdHolds = true ∧ s.safe.hold = false ∧ s.safe.leftNormal = none ∧ s.safe.upAt + ticksOfMs 10 ≤ s.now 6250000 := by decide

theorem wit_SafetyRestartAndHold_warm :
    let c : SafeChan := { chan 1 high with warmSince := some 0 }
    let s := { State.reset with safe := { safe 1 high with cfgSealed := some 0xD9B, a := c, b := c } }
    settled s.safe = true ∧ s.safe.powered = true ∧ s.safe.warm = true ∧ s.safe.cfgSealed ≠ none ∧ s.safe.everNormal = false
      ∧ (c.tested = true ∧ c.st = 1 ∧ c.demand s.safe.tripOn = false ∧ c.edmOpen = true ∧ c.warmSince = some 0)
      ∧ 0 + filterHigh s.safe.cfg ≤ s.now 662500 := by decide

theorem wit_SafetyDiagnosticsFaultOrPass_block :
    let d : Dev := { run0 with cp := { ports := [(47, { stage := .run })] } }
    let s := { ofDev d with safe := { safe 1 high with a := { chan 1 high with request := true }, reqAt := some 0 } }
    47 < 48 ∧ s.tx.sb = true ∧ (s.dev.at 0).sends s.tx 47 = true ∧ s.safe.powered = true ∧ ¬ (s.safe.st = 2 ∧ s.safe.recovery = none)
      ∧ s.safe.reqAt = some 0 ∧ 0 + ticksOfUs 10 ≤ s.now 6250 ∧ s.dev.notBlocked ≠ []
      ∧ fenceWaits c0 s.dev.host.inflight false = false ∧ s.dev.precheck c0 0x00F0 = none ∧ c0.xfer = .ok := by decide

/-! ## Faults, the alarm, firmware -/

theorem wit_MemoryErrorsFillBucketsAndRetire :
    let d : Dev := { run0 with que := { q := [(1023, { items := [⟨1, 0, 0, []⟩] })] }, flt := { pages := [(4194303, 448)] } }
    sramOk .l2 = true ∧ (63 < 64 ∧ d.cyc.run = false ∧ bitN d.par.retReeds 63 = false) ∧ (1023 < 1024 ∧ (d.queue 1023).items = ⟨1, 0, 0, []⟩ :: [])
      ∧ d.flt.stopped = false ∧ d.mode.power ≠ .rest ∧ 4194303 < d.flt.dramPages ∧ d.flt.mapped.any (fun m => m.1 == 4194303) = false
      ∧ d.flt.pages.get 0 0 + 64 < 512 ∧ 448 ≤ d.flt.pages.get 0 4194303 ∧ d.flt.mapped.length < 1024 ∧ (d.flt.pages.map (·.1)).Nodup := by decide

theorem wit_AlarmRisesErasesAndClears :
    let s := { ofDev { run0 with sec := { alarm := 2 } } with safe := safe 0 high }
    8 < 9 ∧ s.safe.powered = true ∧ s.dev.alarmLevel ([1, 2, 2, 2, 3, 3, 1, 1, 1].getD 8 0) < 3 ∧ 2 ≤ s.dev.alarmLevel ([1, 2, 2, 2, 3, 3, 1, 1, 1].getD 3 0)
      ∧ s.dev.sec.tamperErase = true ∧ s.dev.flt.stopped = false ∧ s.dev.mode.power ≠ .rest
      ∧ fenceWaits c0 s.dev.host.inflight false = false ∧ s.dev.precheck c0 0x0105 = none ∧ c0.xfer = .ok ∧ s.dev.sec.present = 0 ∧ 1 < s.dev.sec.alarm := by
  decide

theorem wit_DebugUnlockTakesOneAnswer :
    let d : Dev := { run0 with sec := { challenge := some 7 } }
    fenceWaits c0 d.host.inflight false = false ∧ d.precheck c0 0x0108 = none ∧ c0.xfer = .ok ∧ d.sec.challenge.isSome = true
      ∧ (ofDev d).now 37499999999 < d.sec.challengeAt + ticksOfS 60 ∧ d.sec.challengeAt + ticksOfS 60 ≤ (ofDev d).now 37500000000
      ∧ d.sec.unlockFails = [] := by decide

/-- The answer is right where its signature verifies. -/
theorem wit_DebugUnlockTakesOneAnswer_right (h : ∀ k g s, Config.ecdsaVerify k g s = true) : ({} : Otp).unlockOk 7 ⟨2, 0⟩ = true := by
  simp only [Otp.unlockOk, h]; decide

/-- An OWNER image of one section of type 5. -/
def ownerImg : Image := img.set 6 2 ++ List.replicate 40 0 ++ [5]

theorem wit_FirmwareIsStagedVerifiedActivated :
    let d := run0
    let s := { ofDev d with flash := { verified := some 1, slots := [(1, ownerImg)] }, otp := { owner := [(0, 1), (1, 1), (2, 1)] } }
    fenceWaits c0 d.host.inflight false = false ∧ d.precheck c0 0x0100 = none ∧ d.precheck c0 0x0101 = none ∧ d.precheck c0 0x0102 = none ∧ c0.xfer = .ok
      ∧ memWf s.flash.staged = true ∧ 16777215 + [(0 : Byte)].length ≤ 2 ^ 24 ∧ 2 ^ 24 < 16777216 + [(0 : Byte)].length ∧ (inputs 0).straps.length = 8
      ∧ (ofDev d).flash.verified = none ∧ s.flash.verified = some 1 ∧ d.activateBlocked = false ∧ d.sec.sigFails = []
      ∧ ({ d with mode := { conv := .charging }, twin := { role := .solo } } : Dev).activateBlocked = true ∧ s.flash.ownerImage = false
      ∧ (List.range 4).find? (fun i => (s.otp.owner.find i).isNone) = some 3 ∧ (Image.ownerKey (s.flash.slots.get [] 1)).isSome = true
      ∧ s.otp.ownerSlot = some 2 ∧ imageCheck s.otp (ofDev d).flash.stagedImage = some Sc.SIG_INVALID := by decide

theorem wit_StoredDataIsReturnedAsItIs :
    let e : Entry := ⟨1, 0x0101, 0, false, false, false, 0, 0, 0, 0, 0, none⟩
    let d : Dev := { run0 with log := { ring := [e] }, flt := { cast0 := some ⟨0, 2, [], false⟩ } }
    fenceWaits c0 d.host.inflight false = false ∧ c0.xfer = .ok ∧ (∀ op ∈ [0x0104, 0x0103, 0x0003, 0x0004, 0x0106, 0x0107], d.precheck c0 op = none)
      ∧ (0 < 1024 ∧ 1024 ≤ 1024) ∧ (∃ x ∈ d.log.ring, x.seq.toNat = 1) ∧ 1048575 + 1 ≤ d.log.jsize ∧ d.log.jsize < 1048576 + 1
      ∧ d.flt.cast0 = some ⟨0, 2, [], false⟩ ∧ run0.flt.cast0 = none ∧ run0.flt.cast1 = none := by decide

theorem wit_StoredDataIsReturnedAsItIs_cast : 0 + 256 ≤ castLen 0 := by unfold castLen; omega

/-! ## A cycle -/

/-- In cycle 5, with the sequencer running; every parameter at its default: one arm of 48 cells. -/
def inCycle : Dev := { run0 with cyc := { k := 5, run := true }, twin := { role := .solo } }

/-- With a template of these tasks, pools, and these tasks complete. -/
def ready (xs done : List Task) (d : Dev) : Dev := { d with cyc := { d.cyc with
  banks := [(0, (List.range xs.length).map fun i => ⟨xs.getD i .digest, taskClass (xs.getD i .digest), i, [], i⟩)]
  crit := List.range 20, defer := [40, 41], reserve := [62, 63], done := done } }

theorem wit_CycleStartsAndCellsArePredicted_start :
    let d := run0
    2 ^ 48 - 1 < 2 ^ 48 ∧ d.boot.operational = true ∧ ({ d with flt := { stopped := true } } : Dev).flt.stopped = true ∧ d.flt.stopped = false
      ∧ ({ d with mode := { power := .idle } } : Dev).mode.power ≠ .run ∧ d.mode.entry = none ∧ d.mode.power = .run := by decide

/-- An ok sample at t_k − 1 ms. -/
def smp (v : F32) (t : Int) : Sample := ⟨v, 0, 1, t, 0⟩

theorem wit_CycleStartsAndCellsArePredicted_predict :
    let d : Dev := ready [.pk4 0, .pk4 11] [] { inCycle with
      cyc := { inCycle.cyc with snapMeas := [(0, smp 0x44000000 0)], snapHist := [(96, [smp 0x3F800000 100, smp 0x3F800000 0])], cells := [(1, { seen := true })] }
      cp := { ports := [(0, { stage := .run })] }, par := { active := [(pkey P.mod_iarm_src 0, 0)] } }
    11 < 12 ∧ (d.at 0).critRuns (d.groupArm 11) (.pk4 11) = true ∧ (d.at 605).critRuns (d.groupArm 0) (.pk4 0) = true ∧ 0 ∈ d.groupCells 0
      ∧ d.cyc.snapMeas.find 0 = some (smp 0x44000000 0) ∧ (smp 0x44000000 0).ok = true
      ∧ (d.port 0).stage = .run ∧ (d.armCurrent (d.portArm 0) 0).isSome = true ∧ (d.armCurrent (d.portArm 0) (d.tOf d.cyc.k)).isSome = true
      ∧ 1 ∈ d.groupCells 0 ∧ d.cyc.snapMeas.find 1 = none ∧ (d.cell 1).seen = true ∧ (d.cell 2).seen = false ∧ 2 ∈ d.groupCells 0
      ∧ ({ d with cyc := { d.cyc with k := 0 } } : Dev).tOf 0 = 0 := by decide

theorem wit_CommandDeadlineJudgesTheCycle :
    let d := ready [.kb 0] [] inCycle
    let c1 : Dev := { d with cyc := { d.cyc with cellOvr := 1, lastCause := { ref := true } } }
    let e : Dev := ready [.kb 0] [.kb 0] inCycle
    let past := fun (x : Dev) (t a : Nat) => (x.at t).sinceCycle (900000 + 68000 * x.nSeg a)
    d.cyc.run = true ∧ d.cyc.judged = false ∧ d.cyc.segFault = false ∧ d.flt.stopped = false
      ∧ ((∀ a ∈ d.arms, past d 604 a = false) ∧ d.arms ≠ [] ∧ d.cyc.cause = {}) ∧ (∀ a ∈ d.arms, past d 605 a = true)
      ∧ (e.cyc.cause.any = false ∧ e.arms.any (fun a => !e.critDone a) = false ∧ e.arms.any e.refMissing = false)
      ∧ (d.arms.any (fun a => !d.critDone a) = true ∧ d.cyc.cellOvr = 0 ∧ d.twin.role = .solo)
      ∧ (c1.arms.any (fun a => !c1.critDone a) = true ∧ c1.cyc.cellOvr = 1 ∧ bitN c1.mode.causes 5 = false ∧ c1.cyc.lastCause.ref = true) := by decide

/-- A command frame of BYP with this sequence number. -/
def frame (seq : Nat) : CmdFrame := ⟨false, true, 0, false, seq, .byp, 10, none⟩

theorem wit_CommandDeadlineJudgesTheCycle_ref :
    let d : Dev := { ready [.kb 0] [.kb 0] inCycle with mode := { conv := .blocked } }
    let l : Dev := { d with cyc := { d.cyc with cellOvr := 1, lastCause := { ref := true } } }
    let f : Dev := { d with cyc := { d.cyc with cells := [(0, { lastFrame := some (6, frame 6) }),
      (1, { lastFrame := some (5 + d.depth, frame 7), prev := some ⟨some (6, frame 6), [], [], -1, .byp, false⟩ })] } }
    l.arms.any (fun a => !l.critDone a) = false ∧ l.arms.any l.refMissing = true ∧ l.cyc.lastCause.ref = true ∧ l.cyc.cause.any = false
      ∧ bitN l.mode.causes 5 = false ∧ f.arms.any f.refMissing = true ∧ f.cyc.cellOvr = 0 ∧ f.cellAt 0 = true ∧ f.cellAt 1 = true
      ∧ (f.cell 0).lastFrame = some (6, frame 6) ∧ 6 ≠ f.cyc.k + f.depth ∧ (f.cell 1).lastFrame = some (f.cyc.k + f.depth, frame 7) := by decide

theorem wit_KeyBlockIsBuiltAndSent :
    let d : Dev := ready [.kb 0] ((List.range 12).map .pk4) { inCycle with
      par := { active := [(pkey P.mode_arm_nseg 0, 3)] }, fab := { links := [(0, { width := 2 }), (1, { width := 2 })] } }
    0 < 6 ∧ (d.at 0).critRuns 0 (.kb 0) = true ∧ 0 ∈ d.arms ∧ d.segIn 0 < 16 ∧ d.fullTraffic = true ∧ d.linkUp 0 = true ∧ d.linkUp 1 = true
      ∧ 0 < (d.reachOf (d.nSeg 0) (d.segIn 0)).1 ∧ 0 < (d.reachOf (d.nSeg 0) (d.segIn 0)).2
      ∧ ({ d with twin := {} } : Dev).fullTraffic = false := by decide

/-- A KEY block of cycle 5. -/
def key (cyc seg : Nat) : KeyBlock := ⟨cyc, seg, false, 0, true, true, false, false, true, 0, 0, 0, 0, 0, 0, 0, 0, 0, [], []⟩

/-- The device of an arm of three, with its own block, in cycle 5. -/
def exchanging (a : ArmState) : Dev := { inCycle with
  par := { active := [(pkey P.mode_arm_nseg 0, 3)] }, fab := { links := [(0, { width := 2 }), (1, { width := 2 }), (2, { width := 2 })] }
  cyc := { inCycle.cyc with arms := [(0, { a with fresh := 1, blocks := [(0, key 5 0)] })] } }

theorem wit_KeyBlocksAreGathered :
    let d := exchanging { lastFresh := [(1, (4, key 4 1)), (2, (1, key 1 2))] }
    3 < 4 ∧ (key 5 15).seg < 16 ∧ 0 ∈ d.arms ∧ (key 5 1).cycLo = d.cyc.k % 65536 ∧ (key 4 1).cycLo ≠ d.cyc.k % 65536 ∧ (d.armSt 0).gathered = false
      ∧ ((ofDev d).now 0 - d.cyc.tk) * 1600 ≤ tKxPs (d.nSeg 0) ∧ (key 5 1).seg ≠ d.segIn 0 ∧ d.linkUp 0 = true ∧ d.linkUp 1 = true ∧ d.linkUp 2 = true
      ∧ d.cyc.run = true ∧ (∀ x ∈ (d.armSt 0).twinBlocks, x.2.seg = x.1) ∧ (∀ x ∈ (d.armSt 0).lastFresh, x.2.2.seg = x.1)
      ∧ 2 < d.nSeg 0 ∧ (d.armSt 0).lastFresh.find 2 = some (1, key 1 2) ∧ (d.armSt 0).blocks.find 2 = none ∧ (d.armSt 0).twinBlocks.find 2 = none
      ∧ (d.armSt 0).blocks.find 1 = none ∧ (d.armSt 0).lastFresh.find 1 = some (4, key 4 1) ∧ d.cyc.k ≤ 4 + d.pn P.mod_blk_hold
      ∧ 1 + d.pn P.mod_blk_hold < d.cyc.k ∧ (d.armSt 0).blocks.find 0 = some (key 5 0) ∧ bitN (d.armSt 0).fresh 0 = true
      ∧ (d.at 1000).sinceCycle (tKxPs (d.nSeg 0)) = true ∧ (d.at 1000).sinceCycle (tKxPs (d.nSeg 0) + 150000) = true
      ∧ d.pni P.mod_pg_arm 0 < 6 ∧ bitN ([1, 0, 0].getD 0 0) 0 = true := by decide

/-- At the deadline the twin's copies complete the blocks. -/
theorem wit_KeyBlocksAreGathered_twin :
    let d := exchanging { twinBlocks := [(1, key 5 1), (2, key 5 2)], refs := [⟨⟨5, 2, 0, 1, 100, 0⟩, 0, false⟩] }
    (∀ x ∈ (d.armSt 0).twinBlocks, x.2.seg = x.1) ∧ (d.armSt 0).blocks.find 1 = none ∧ (d.armSt 0).twinBlocks.find 1 = some (key 5 1)
      ∧ (∀ j, j < d.nSeg 0 → (((d.armSt 0).blocks.find j).orElse fun _ => (d.armSt 0).twinBlocks.find j).isSome = true)
      ∧ (d.recordNow 0).isSome = true ∧ (d.armSt 0).echoBad < 2 := by decide

/-- A gathered arm of one block that offers port 3, with a reference. -/
def block0 : KeyBlock :=
  { key 5 0 with nUse := 2, vSum := 4000, keys := [7, 7, 7, 9], states := List.replicate 4 { present := true, usable := true } }
def withRef (a : ArmState) : ArmState := { a with gathered := true, uRef := some 100, record := some ⟨5, 2, 0, 1, 100, 0⟩, blocks := [(0, block0)] }
def gathered : Dev := { inCycle with cyc := { inCycle.cyc with arms := [(0, withRef { winLen := 2 })] } }

theorem wit_CellsAreCountedAndRanked :
    let d := ready [.count 0, .rank4 0] [] gathered
    let e : Dev := { d with cyc := { d.cyc with arms := [(0, { gathered := true })] } }
    0 < 6 ∧ (d.at 605).critRuns 0 (.count 0) = true ∧ (d.at 0).critRuns 0 (.rank4 0) = true ∧ 0 ∈ d.arms ∧ (d.armSt 0).gathered = true ∧ (d.armSt 0).uRef = some 100
      ∧ 0 < (d.armSt 0).blocks.foldl (fun n b => n + b.2.vSum) 0 ∧ 0 < (d.armSt 0).blocks.foldl (fun n b => n + b.2.nUse) 0
      ∧ 10 * 100 * 2 * 65536 / 4000 ≤ 65536 * (2 : Int) ∧ 2 < 3 ∧ 11 < 12 ∧ d.groups[0]? = some (0, [0, 1, 2, 3])
      ∧ (9, d.segIn 0, 3) ∈ candidates (d.armSt 0).blocks (d.armCount 0).neg
      ∧ (∀ y ∈ candidates (d.armSt 0).blocks (d.armCount 0).neg, y.2 = (d.segIn 0, 3) → y.1 = 9)
      ∧ (e.armSt 0).uRef = none ∧ (e.at 0).critRuns 0 (.count 0) = true ∧ (e.armSt 0).gathered = true := by decide

theorem wit_CommandFramesAreBuilt :
    let d : Dev := { ready [.count 0, .rank4 0, .build4 0] [.count 0, .rank4 0] gathered with cp := { ports := [(0, { stage := .run })] } }
    0 < 12 ∧ d.groups[0]? = some (0, [0, 1, 2, 3]) ∧ (d.at 605).critRuns 0 (.build4 0) = true
      ∧ d.refMissing 0 = false ∧ d.mode.conv ≠ .deblocked ∧ (d.port 0).raise = none ∧ d.fullTraffic = true ∧ d.cyc.fallback = none
      ∧ (d.port 0).commands = true ∧ d.sends (ofDev d).tx 0 = true ∧ (d.selected 0).2 = false
      ∧ (d.cell 0).lastInst < (((d.cyc.k + d.depth) * d.tModTicks : Nat) : Int) + 65535 := by decide

theorem wit_RecordsBandAndDigest :
    let d : Dev := { ready [.armrec 0, .band 0, .digest] [] gathered with par := { active := [(pkey P.ctl_n_ctl 0, 2)] } }
    let w : Dev := { d with cyc := { d.cyc with arms := [(0, withRef { winLen := 1 })] } }
    let b : Dev := { d with cyc := { d.cyc with arms := [(0, withRef { winLen := 1, bandSet := true })] } }
    let e : Dev := { d with cyc := { d.cyc with judged := true } }
    (d.at 605).critRuns 0 (.armrec 0) = true ∧ d.leadsArm 0 = true ∧ (d.armSt 0).gathered = true ∧ (d.cyc.k + 1) % max 1 (d.pn P.ctl_n_ctl) = 0
      ∧ d.armCurrent 0 (d.tOf 6) = none ∧ d.convLead = true ∧ (d.armSt 0).lateSpread = none ∧ d.listed (.band 0) = true ∧ Task.band 0 ∉ d.cyc.done
      ∧ d.pv P.mod_band_mode ≠ 0 ∧ (d.armSt 0).nWin + 1 < (d.armSt 0).winLen ∧ (w.armSt 0).winLen ≤ (w.armSt 0).nWin + 1 ∧ (w.armSt 0).bandSet = false
      ∧ (b.armSt 0).bandSet = true
      ∧ e.cyc.run = true ∧ e.cyc.lateDigest = none ∧ e.listed .digest = true ∧ Task.digest ∉ e.cyc.done ∧ e.cyc.judged = true := by decide

/-- A record block for arm 0. -/
def refB (c0 cmd : Nat) : RefBlock := ⟨c0, 2, 1, [cmd], [(100, 0)]⟩

theorem wit_RecordsBandAndDigest_receive :
    let fab : Fabric := { links := [(0, { width := 1 }), (2, { width := 2 })]
                          lanes := [(0, { stage := .up, partner := some ⟨9, false, 0, 1, 1, 0, 0, 0⟩ })] }
    let d : Dev := { ready [.armrec 0] [] gathered with fab := fab, ctl := { seenRef := [9] } }
    let l : Dev := { d with par := { active := [(pkey P.mode_lead_arm 0, 1), (pkey P.ctl_n_ctl 0, 2)] } }
    (refB 7 1).present < 64 ∧ 0 ∈ d.arms ∧ bitN (refB 7 1).present 0 = true ∧ (refB 7 1).cmds.getD 0 0 ≠ 3 ∧ (∀ x ∈ (d.armSt 0).refs, x.r.c0 = (refB 7 1).c0 → x.twin ≠ false)
      ∧ (refB 7 3).cmds.getD 0 0 = 3 ∧ 7 / 2 ≠ 2 ∧ (refB 7 1).c0 ∉ d.ctl.seenRef ∧ d.linkUp 2 = true ∧ 5 / 2 = 2 ∧ (refB 9 1).c0 ∈ d.ctl.seenRef
      ∧ d.convLead = true ∧ l.convLead = false ∧ l.armRecPort = some 0 ∧ 0 ≠ 7 / 2 ∧ l.linkUp 0 = true ∧ l.fullTraffic = true
      ∧ (l.at 0).critRuns 0 (.armrec 0) = true := by decide

/-- A cell of group 0 with an edge this long after its commanded transition, in a snapshot that holds it. -/
def edged (after : Int) : Dev := ready [.dly4 0] [] { inCycle with
  cyc := { inCycle.cyc with cells := [(0, { trans := [(1000, .byp, .pos)] })], snapHist := [(96, [smp 0x42C80000 0])] }
  meas := { ch := [(48, { edges := [⟨true, false, false, 0, 1000 + after, 9⟩] })] }
  par := { active := [(pkey P.mod_iarm_src 0, 0)] } }

theorem wit_DelaysAndCapacitancesAreLearnt :
    let d := edged 625
    let r := edged 6250
    0 < 12 ∧ 0 < d.groups.length ∧ d.carryRuns (.dly4 0) = true ∧ 0 ∈ d.groupCells 0
      ∧ (d.chain 48).edges = [⟨true, false, false, 0, 1625, 9⟩] ∧ d.snapHolds 9 = true ∧ (d.chain 48).perm = false ∧ (d.cell 0).trans = [(1000, .byp, .pos)]
      ∧ 1625 ≤ 1000 + ((ticksOfNs (d.pn P.mod_edge_timeout_ns) : Nat) : Int) ∧ isDirect .byp .pos = false ∧ (polarity .pos != 0) = true
      ∧ d.transSuspended 0 (1000, .byp, .pos) = false
      ∧ d.armCurrent (d.portArm 0) 1625 = some 0x42C80000 ∧ f32lt (f32abs 0x42C80000) (f32ofInt (d.pv P.mod_dly_imin_a)) = false
      ∧ ((1625 : Int) - 1000 - cellDelay (d.cell 0) d.gTicks (dlyClass .pos (!f32lt 0x42C80000 f0))).natAbs ≤ ticksOfNs (d.pn P.mod_dly_reject_ns)
      ∧ 7250 ≤ 1000 + ((ticksOfNs (r.pn P.mod_edge_timeout_ns) : Nat) : Int)
      ∧ ticksOfNs (r.pn P.mod_dly_reject_ns) < ((7250 : Int) - 1000 - cellDelay (r.cell 0) r.gTicks (dlyClass .pos (!f32lt 0x42C80000 f0))).natAbs
      ∧ (r.cell 0).dlyRej.getD 0 0 < 15 ∧ ({ perm := true } : Chain).perm = true := by decide

theorem wit_DelaysAndCapacitancesAreLearnt_missing :
    let o : Sample := ⟨0, 0, 1, 0, 100⟩
    let d : Dev := { edged 0 with cyc := { (edged 0).cyc with snapMeas := [(48, o)] }, meas := {} }
    let wait : Int := ((ticksOfNs (d.pn P.mod_edge_timeout_ns) : Nat) : Int)
    (d.chain 48).edges = [] ∧ d.cyc.snapMeas.find (48 + 0) = some o ∧ d.carryRuns (.dly4 0) = true ∧ 1000 + wait ≤ ((o.rel : Int) / 2 - 4) * 625
      ∧ d.transSuspended 0 (1000, .byp, .pos) = false ∧ polarity .byp ≠ polarity .pos ∧ bitN d.mode.causes 0 = false
      ∧ (d.cell 0).swFail < 2 := by decide

/-- An insertion of cell 0 of 1 ms at 100 A with this voltage after it, from 1,000 V. -/
def inserted (v1 : F32) : Dev := ready [.cap4 0] [] { inCycle with
  cyc := { inCycle.cyc with cells := [(0, { capLast := some ⟨0, 0x447A0000, true, 0⟩, capQ := [⟨700000, v1, true, 9⟩],
                                            open_ := some ⟨.pos, 0x447A0000, 0, 2, 100⟩, sched := [(625000, .byp), (-5, .pos)] })],
                            snapHist := [(96, [smp 0x42C80000 700000, smp 0x42C80000 0])] }
  par := { active := [(pkey P.mod_iarm_src 0, 0)] } }

/-- Its charge over the change of voltage, within half and one and a half times nominal. -/
def capWithin (d : Dev) (v1 : F32) : Option Bool :=
  let nom := f32ofRat (d.pn P.mod_cap_nom_uf) 1000000
  (d.capCharge 0 0 700000).map fun q =>
    let cw := f32div (f32add 0 q) (f32sub v1 0x447A0000)
    f32le (f32mul fHalf nom) cw && f32le cw (f32mul (f32ofRat 3 2) nom)

theorem wit_DelaysAndCapacitancesAreLearnt_cap :
    let d := inserted 0x447A0000
    let small := fun (v1 : F32) => f32lt (f32abs (f32sub v1 0x447A0000)) (f32ofRat 100 1000)
    0 < 12 ∧ 0 < d.groups.length ∧ d.carryRuns (.cap4 0) = true ∧ 0 ∈ d.groupCells 0
      ∧ (d.cell 0).capLast = some ⟨0, 0x447A0000, true, 0⟩ ∧ (d.cell 0).capQ = [⟨700000, 0x447A0000, true, 9⟩] ∧ d.snapHolds 9 = true
      ∧ (d.cell 0).open_ = some ⟨.pos, 0x447A0000, 0, 2, 100⟩
      ∧ ((d.cell 0).sched.filter fun y => decide ((0 : Int) < y.1) && decide (y.1 ≤ 700000)) = [(625000, .byp)] ∧ polarity .byp = 0
      ∧ small 0x447A0000 = true ∧ small 0x44960000 = false ∧ capWithin (inserted 0x44960000) 0x44960000 = some false := by decide

theorem wit_DelaysAndCapacitancesAreLearnt_cap_takes :
    let d := { inserted 0x447F0000 with par := { active := [(pkey P.mod_iarm_src 0, 0), (pkey P.mod_cap_nom_uf 0, 5000)] } }
    d.carryRuns (.cap4 0) = true ∧ f32lt (f32abs (f32sub 0x447F0000 0x447A0000)) (f32ofRat 100 1000) = false ∧ capWithin d 0x447F0000 = some true := by decide

theorem wit_ReedsFailAndReturn :
    let d := ready [.pk4 0, .digest] [] inCycle
    let f : Dev := { d with cyc := { d.cyc with reeds := [(0, { bucket := 4095 })], testing := some 62, nextTest := 63 } }
    let r : Dev := { d with par := { retReeds := 2 ^ 63 } }
    63 < 64 ∧ d.reedOf (.pk4 0) = some 0 ∧ Task.pk4 0 ∉ d.cyc.done ∧ (d.reed 0).bucket + 64 < min 65536 (d.pn P.cyc_reed_err_limit)
      ∧ d.cyc.reserve = 62 :: [63] ∧ f.reedOf (.pk4 0) = some 0 ∧ bitN f.par.retReeds 0 = false
      ∧ f.pn P.cyc_reed_err_limit ≤ min 65535 ((f.reed 0).bucket + 64) ∧ (1 ≤ 8 ∧ 8 ≤ 8) ∧ f.cyc.testing = some 62
      ∧ f.cyc.nextTest = (62 + 1) % 64 ∧ bitN f.par.retReeds 62 = false ∧ d.cyc.testing = none ∧ ({ d with par := { active := [(pkey P.cyc_selftest 0, 1)] } } : Dev).pv P.cyc_selftest = 1 ∧ d.cyc.nextTest = 0
      ∧ bitN d.par.retReeds 0 = false ∧ d.reedDomainOff 0 = false ∧ fenceWaits c0 r.host.inflight false = false ∧ r.precheck c0 0x0090 = none ∧ c0.xfer = .ok
      ∧ r.mode.conv = .deEnergised ∧ bitN r.par.retReeds 63 = true ∧ ({ d with mode := { conv := .charging } } : Dev).mode.conv ≠ .deEnergised ∧ 64 ≤ 64 := by
  decide

/-- Reed 41 finds three ready tasks on reed 40 and takes two of them; a critical reed takes what fits after its BUILD4. -/
theorem wit_ReedsFailAndReturn_steal :
    let d : Dev := { ready [] [.build4 0] inCycle with cyc := { (ready [] [.build4 0] inCycle).cyc with deque := [(40, [.law 0, .law 1, .law 2])] } }
    (d.at 0).stealPlan 41 = some (40, [.law 2, .law 1]) ∧ (d.at 0).stealPlan 0 = some (40, [.law 2, .law 1]) ∧ (d.at 0).stealPlan 40 = none
      ∧ (d.at 0).stealPlan 1 = none := by decide

/-! ## The cell ports -/

/-- The device in a cycle with this cell port 47. -/
def withPort (x : CellPort) : Dev := { inCycle with cp := { ports := [(47, x)] } }

/-- The capability registers of a cell head that passes every check. -/
def goodCaps : Tab Nat := [(0, 0x1000), (1, 4), (4, 40), (9, 1), (10, 2)]

set_option maxRecDepth 8192 in
theorem wit_PortsComeUpStageByStage :
    let e : CellPort := { stage := .measure, echoes := List.replicate 16 1000 }
    let far : CellPort := { e with caps := [(2, 0)], echoes := List.replicate 16 5300000 }
    let w : CellPort := { stage := .measure, echoes := 2001 :: List.replicate 15 1000 }
    let c : CellPort := { stage := .cap, read := List.range 12, caps := goodCaps }
    (47 < 48 ∧ ((withPort {}).port 47).retired = false ∧ (withPort {}).decided = true ∧ run0.decided = false)
      ∧ ({ stage := .listen, heard := true } : CellPort).heard = true ∧ 8 ≤ ({ goodRun := 8 } : CellPort).goodRun
      ∧ (16 ≤ e.echoes.length ∧ e.echoes.foldl max (e.echoes.getD 0 0) - e.echoes.foldl min (e.echoes.getD 0 0) ≤ 1000
        ∧ e.caps.find 2 = none ∧ far.caps.find 2 ≠ none
        ∧ 2600000 < (far.echoes.foldl (· + ·) 0 / (far.echoes.length : Int) - far.trx - far.ttx + far.asym) / 2)
      ∧ (1000 < w.echoes.foldl max (w.echoes.getD 0 0) - w.echoes.foldl min (w.echoes.getD 0 0) ∧ w.spreads < 2 ∧ 2 ≤ ({ w with spreads := 2 } : CellPort).spreads)
      ∧ (c.retrain = none ∧ (∀ a, a < 12 → a ∈ c.read) ∧ (withPort c).capOk c = true ∧ c.tDown ≤ 2600000 ∧ (withPort c).holds = true
        ∧ (withPort { c with caps := [] }).capOk { c with caps := [] } = false ∧ c.capBad = false)
      ∧ (∀ a, a < 0x24 → 0x20 ≤ a → a ∈ ({ written := [0x20, 0x21, 0x22, 0x23] } : CellPort).written) ∧ 16 ≤ ({ alignN := 16 } : CellPort).alignN
      ∧ (({ retrain := some 0 } : CellPort).retrain ≠ none ∧ ({ boots := true } : CellPort).boots = true ∧ c.boots = false)
      ∧ ({ head := 2 } : CellPort).head = 2
      ∧ (portTimeout .lock = some 100 ∧ 0 + ticksOfUs 100 ≤ (ofDev (withPort { stage := .lock, heard := true })).now 62500 ∧ ({ heard := true } : CellPort).heard = true) := by
  decide

/-- A DATA frame of a cell head in state 4 that raises its stuck flag, as the line carries it from a descrambler of ones. -/
def faultFrame : UpData := ⟨false, 4, 255, 63, false, 15, 255, 5, 9⟩
def upLine (f : UpFrame) : List Bool := (f.line (BitVec.allOnes 17)).1
/-- The descrambler after it. -/
def upAfter (f : UpFrame) : BitVec 17 := (f.line (BitVec.allOnes 17)).2

set_option maxRecDepth 8192 in
theorem wit_UplinkFramesAnswerAndAreCounted :
    let d := withPort { stage := .run, bucket := 4032, badRun := 7 }
    let m := withPort { stage := .measure }
    let r := withPort { retrain := some 0 }
    let f := faultFrame
    (47 < 48 ∧ (d.port 47).stage ≠ .off ∧ (m.port 47).stage = .measure
        ∧ receiveUp (m.port 47).rx (upLine (.resp 0xF3 65535)) = (some (.resp 0xF3 65535), upAfter (.resp 0xF3 65535))
        ∧ ((({ m with down := [(47, { echo := some 0 })] } : Dev).at 0).dl 47).echo = some 0
        ∧ receiveUp (m.port 47).rx (upLine (.resp 0x1F 1)) = (some (.resp 0x1F 1), upAfter (.resp 0x1F 1)) ∧ 0x1F < 0x20
        ∧ (0x20, 20) ∈ (withPort { stage := .config }).cfgWrites 47 ∧ (r.port 47).retrain ≠ none ∧ (r.port 47).caps.get 0 1 ≠ 1)
      ∧ (receiveUp (d.port 47).rx (upLine (.data f)) = (some (.data f), upAfter (.data f)) ∧ f.idx ≠ 3 ∧ f.idx ≠ 4 ∧ f.state = 4 ∧ f.state ≠ 1
        ∧ (d.port 47).stage = .run ∧ (d.at 0).ctBy (d.epochOf 47 0 * 1000 + 3400) = true
        ∧ (d.port 47).head ≠ 4 ∧ d.duplex = false ∧ d.cellAt 47 = true ∧ bitN d.par.retCells 47 = false ∧ (d.cell 47).lost = false
        ∧ (d.cell 47).retiring = none ∧ ({ f with state := 1 } : UpData).state = 1 ∧ ({ f with idx := 0 } : UpData).idx = 0 ∧ bitN f.val 3 = true
        ∧ ({ f with idx := 2 } : UpData).idx = 2 ∧ f.val ≠ 0 ∧ (d.port 47).items.get 0 2 = 0)
      ∧ ((d.port 47).retired = false ∧ ((withPort { stage := .run }).port 47).bucket + 64 < d.pn P.link_err_limit
        ∧ ((withPort { stage := .run }).port 47).bucket + 64 < 65536
        ∧ receiveUp (d.port 47).rx [] = (none, (d.port 47).rx) ∧ (d.port 47).moved 0 = none
        ∧ (((withPort { lastArr := some 0 }).port 47).moved 100).map (fun m => decide (m.natAbs ≤ 32)) = some false
        ∧ ((withPort { stage := .run }).port 47).badRun < 7 ∧ ((withPort { stage := .run, badRun := 7 }).port 47).bucket + 64 < d.pn P.link_err_limit
        ∧ 7 ≤ (d.port 47).badRun ∧ d.pn P.link_err_limit ≤ (d.port 47).bucket + 64) := by decide

theorem wit_PortsRetrainTrackAndRetire :
    let r : CellPort := { stage := .lock, retrain := some 0 }
    let e : CellPort := { stage := .run, aim := 20000 }
    let q : Dev := { withPort e with down := [(47, { phi := 62 })] }
    let l : Dev := { withPort e with down := [(47, { phi := 63, phiAt := 1 })] }
    (r.retrain = some 0 ∧ 0 + ticksOfMs 2 ≤ (ofDev (withPort r)).now 1250000 ∧ r.stage ≠ .run ∧ r.retired = false
        ∧ (r.failTimes.filter fun t0 => decide ((ofDev (withPort r)).now 1250000 < t0 + ticksOfS 10)).length < 7
        ∧ 7 ≤ (({ failTimes := List.replicate 7 0 } : CellPort).failTimes.filter fun t0 => decide (1250000 < t0 + ticksOfS 10)).length)
      ∧ (({ retired := true } : CellPort).retired = true ∧ ({ retired := true } : CellPort).fillOnly = false
        ∧ ({} : CellPort).retiredAt + ticksOfS 1 ≤ (ofDev (withPort r)).now 625000000)
      ∧ ((withPort e).holds = true ∧ (q.dl 47).phiAt = 0 ∧ 0 < (q.dl 47).phi ∧ (q.dl 47).phi < 63 ∧ (l.dl 47).phi = 63
        ∧ e.mustAlign = false ∧ 125 < e.aim - (63 * 250 + (withPort e).tDown 47))
      ∧ ((l.dl 47).phiAt ≠ 0 ∧ (ofDev l).now 62500 < (l.dl 47).phiAt + ticksOfUs 100)
      ∧ (({ e with mustAlign := true } : CellPort).mustAlign = true ∧ e.stage = .run) := by decide

theorem wit_DownlinkFramesOfAPort :
    let d := withPort { stage := .run, ctrl := [(.echo, 0, 0)] }
    let sb : Dev := { withPort { stage := .run, ctrl := [(.start, 0, 0)] } with twin := { role := .standby } }
    let g : Dev := { withPort { stage := .run, live := true } with cyc := { inCycle.cyc with fallback := some ⟨true, 3, 6⟩ } }
    let al : Dev := withPort { stage := .align, ctrl := [(.syncEpoch, 0, 0), (.syncCycle, 0, 0)] }
    let b := fun (d : Dev) (t : Nat) => max (bitAfter ((ofDev d).now t)) (((d.at t).dl 47).busy)
    (47 < 48 ∧ d.sends (ofDev d).tx 47 = true ∧ (d.at 938).ctrlClosed 47 (b d 938) = true ∧ ((d.at 0).dl 47).wait = []
        ∧ (d.at 0).ctrlClosed 47 (b d 0) = false ∧ ((withPort { stage := .run }).port 47).ctrl = [])
      ∧ ((d.port 47).ctrl = (.echo, 0, 0) :: [] ∧ (d.port 47).stage ≠ .listen ∧ (d.port 47).stage ≠ .lock ∧ CtrlOp.echo ≠ .nop
        ∧ ((d.at 0).dl 47).echo = none ∧ ((({ d with down := [(47, { echo := some 0 })] } : Dev).at 0).dl 47).echo ≠ none)
      ∧ ((sb.port 47).ctrl = (.start, 0, 0) :: [] ∧ sb.holds = false)
      ∧ (((al.at 0).syncEpoch 47 (b al 0)).isSome = true ∧ ((al.at 0).syncCycle 47 (b al 0)).isSome = true ∧ al.holds = true)
      ∧ (g.cyc.fallback = some ⟨true, 3, 6⟩ ∧ (g.port 47).commands = true ∧ 6 ≤ g.cyc.k + g.depth ∧ g.cyc.tk + ticksOfNs 1500 ≤ (ofDev g).now 938
        ∧ (∀ f ∈ (g.port 47).sent, f.1 ≠ g.cyc.k + g.depth)) := by decide

theorem wit_CellsRetireAndReturn :
    let d := inCycle
    let u : Dev := { d with par := { active := [(pkey P.dup_mode 0, 1)] } }
    let h : Dev := { withPort { stage := .run, healthSince := some 0, retired := true } with cyc := { inCycle.cyc with cells := [(47, { fired := some 0 })] } }
    ((fenceWaits c0 d.host.inflight false = false ∧ d.precheck c0 0x0050 = none ∧ c0.xfer = .ok) ∧ (fenceWaits c0 d.host.inflight false = false ∧ d.precheck c0 0x0051 = none ∧ c0.xfer = .ok)
        ∧ d.ownCell 0 0 48 = false ∧ d.ownCell 0 (d.portSeg 47) 47 = true ∧ bitN d.par.retCells 47 = false ∧ (d.cell 47).lost = false ∧ (d.cell 47).retiring = none
        ∧ d.duplex = false ∧ u.duplex = true ∧ u.decided = true ∧ (∀ x ∈ u.twin.changes, x.port = 47 → x.kind ≠ .fail))
      ∧ (d.mode.conv = .deEnergised ∧ ({ d with mode := { conv := .charging } } : Dev).mode.conv ≠ .deEnergised ∧ (h.port 47).retired = true ∧ (d.port 47).retired = false)
      ∧ ((h.port 47).healthSince = some 0 ∧ 0 + ticksOfS 10 ≤ (ofDev h).now 6250000000 ∧ (h.cell 47).fired = some 0 ∧ bitN h.mode.causes 0 = false
        ∧ 0 + ticksOfMs 50 ≤ (ofDev h).now 31250000 ∧ (h.port 47).head ≠ 5 ∧ (h.cell 47).lost = false) := by decide

/-! ## Measurement, SAR, control -/

/-- Chain 0 and REF chain 0 enabled at preset 0, with a block of port 0 for epoch 1. -/
def measuring : Dev := { inCycle with
  meas := { ch := [(0, { on := true }), (96, { on := true })], blocks := [(0, { own := [(1, 5, 6)] })] }, fab := { links := [(2, { width := 2 })] } }

theorem wit_BlocksAreReleasedToTheirChains :
    let d := measuring
    let h : Dev := { d with par := { active := [(pkey P.dup_mode 0, 1), (pkey P.meas_ref_follow 0, 1)] }, twin := { role := .holder } }
    let b : Dev := { h with twin := { role := .standby }, meas := { ch := [(96, { on := true, missRun := 7 })] } }
    (1 ≤ 1 ∧ d.mode.test ≠ .simcell ∧ (d.chain 0).on = true ∧ (d.meas.blocks.get {} 0).find 1 = some (5, 6) ∧ (d.meas.blocks.get {} 0).find 2 = none
        ∧ (d.chain 0).swap = none ∧ (d.chain 0).change = [] ∧ (d.chain 0).since ≤ 25 * (1 - 1) ∧ (d.chain 0).cfg.tIn = 40
        ∧ mTot (preset (d.chain 0).cfg.preset) = 25 ∧ (d.chain 0).cfg.delay = 0 ∧ (d.chain 1).on = false)
      ∧ (d.duplex = false ∧ (d.chain 96).on = true ∧ (d.chain 96).fwdIn = false ∧ (d.chain 96).inNext = none ∧ (d.chain 96).change = []
        ∧ (d.chain 96).swap = none ∧ (d.chain 96).cfg.tIn = 40 ∧ mTot (preset (d.chain 96).cfg.preset) = 25)
      ∧ (h.duplex = true ∧ h.twin.role = .holder ∧ h.linkUp 2 = true ∧ bitN (h.pn P.meas_ref_follow) 0 = true)
      ∧ (b.twin.role = .standby ∧ (b.meas.fwd.get [] 0).find? (·.1 == 1) = none ∧ (b.chain 96).own = false ∧ 7 ≤ (b.chain 96).missRun) := by decide

theorem wit_FramesAreRepairedAndStreamsFail :
    let d : Dev := { measuring with par := { active := [(pkey P.dup_mode 0, 1)] } }
    let g : Dev := { measuring with meas := { ch := [(47, { on := true, entries := List.replicate 8 0 }), (103, { on := true, faulty := true })],
                                              requested := [(1, 3)], blocks := [(0, { own := [(1, 5, 6)], absent := [2] })] },
                                    tim := { running := true } }
    (d.duplex = true ∧ maskOf 48 (fun p => (d.chain p).on && !d.simCell p && ((d.meas.blocks.get {} p).own.find? (·.1 == 2)).isNone) ≠ 0 ∧ d.linkUp 2 = true
        ∧ measuring.duplex = false)
      ∧ (16383 < 16384 ∧ ((d.meas.blocks.get {} 0).own.find? (·.1 == 1)).map (·.2) = some (5, 6) ∧ (d.at 0).epochNear 1 = 1 ∧ bitN 1 0 = true
        ∧ ((d.meas.blocks.get {} 1).own.find? (·.1 == 1)).map (·.2) = none ∧ (d.at 0).ctBy (1 * 1000 + 3900) = true ∧ ({ g with clk := 6250 } : Dev).ctBy (1 * 1000 + 3900) = false)
      ∧ (g.meas.requested.find? (·.1 == 1) = some (1, 3) ∧ bitN 3 1 = true ∧ (g.meas.blocks.get {} 1).find 1 = none ∧ 1 ∉ (g.meas.blocks.get {} 1).absent)
      ∧ ((g.chain 47).on = true ∧ (g.chain 47).perm = false ∧ 8 ≤ (g.chain 47).entries.length ∧ (g.chain 103).faulty = true
        ∧ (g.chain 103).faultAt + g.pn P.meas_perm_ms * 1000000 ≤ ((g.at 625000000).ctNow * 16 / (2 ^ 32 * 10)).toNat
        ∧ g.duplex = false ∧ g.cellAt 47 = true ∧ bitN g.par.retCells 47 = false ∧ (g.cell 47).lost = false ∧ (g.cell 47).retiring = none) := by decide

/-- One coefficient of 1 in each stage. -/
def ones : List Word := [1 + 512, 0, 1, 1]

theorem wit_CoefficientBanksAreSwapped :
    let m : Meas := { coef := [(16, ones)], ch := [(0, { on := true, ix := some 25, slotA := 16 }), (1, { on := true, ix := some 25, swap := some (16, 0, c0) }),
                                                (3, { on := true, ix := some 25, swap := some (16, 5, c0) })] }
    let d : Dev := { measuring with meas := m }
    let f : Dev := { d with par := { active := [(pkey P.meas_fade_len 0, 0)] } }
    let u : Dev := { d with par := { active := [(pkey P.dup_mode 0, 1), (pkey P.meas_ref_follow 0, 1)] } }
    ((fenceWaits c0 d.host.inflight false = false ∧ d.precheck c0 0x0060 = none ∧ c0.xfer = .ok) ∧ (fenceWaits c0 d.host.inflight false = false ∧ d.precheck c0 0x0061 = none ∧ c0.xfer = .ok) ∧ (fenceWaits c0 d.host.inflight false = false ∧ d.precheck c0 0x0062 = none ∧ c0.xfer = .ok))
      ∧ (16 ≤ 255 ∧ 255 < 256 ∧ fieldN (ones.getD 0 0).toNat 0 9 ≤ 255 ∧ fieldN (ones.getD 0 0).toNat 9 9 ≤ 255
        ∧ (∀ n, n < 104 → (d.chain n).holds 255 = false ∧ d.activeSlot n ≠ 255) ∧ (d.chain 0).slot = 16 ∧ 15 < 16)
      ∧ (103 < 104 ∧ 5 < 2 ^ 48 ∧ 8 ≤ 16 ∧ d.startOk 0 0 = true ∧ setRefused (preset 0) (d.coefSet 16) = false ∧ setRefused (preset 0) (d.coefSet 17) = true
        ∧ (d.chain 0).fade = none ∧ (d.chain 0).swap = none ∧ (d.chain 2).slot ≠ 16 ∧ (d.chain 2).swap = none
        ∧ (d.chain 1).swap = some (16, 0, c0))
      ∧ ((d.chain 1).fade = none ∧ (d.chain 1).on = true ∧ (d.chain 1).boundary (preset 0) = some 25 ∧ (d.chain 1).cfg.preset = 0
        ∧ 0 * d.pn P.mod_t_mod_ns ≤ 25 * (d.chain 1).cfg.tIn ∧ c0.xfer = .ok ∧ d.pn P.meas_fade_len ≠ 0 ∧ f.pn P.meas_fade_len = 0
        ∧ (d.chain 3).boundary (preset 0) = some 25 ∧ 25 * (d.chain 3).cfg.tIn < 5 * d.pn P.mod_t_mod_ns ∧ (d.chain 2).boundary (preset 0) = none)
      ∧ (u.startOk 96 5 = false ∧ 2 ^ 96 < 2 ^ 104 ∧ bitN (2 ^ 96) 96 = true) := by decide

theorem wit_CoefficientBanksAreSwapped_words : (ones ++ List.replicate 508 0).length = 512 := by
  rw [List.length_append, List.length_replicate]; rfl

/-- Sequencer 0 with one slot for channel 15: DR and Q set. -/
def sampling (q : SarSeq) : Dev := { inCycle with
  sar := { seq := [(0, q)], ch := [(15, { loRead := true })] }
  par := { active := [(pkey P.sar_queue 0, 600), (pkey P.sar_seq_mode 0, 1)] } }

theorem wit_SarPassesConvertAndPush :
    let c := sampling { run := true, slots := [(23, 0xC00F), (22, 0xC00F)], due := 100 }
    let m := sampling { run := true, slots := [(23, 0x8017)] }
    let e := sampling { run := true, slots := [(23, 0xC00F)], pos := 1, staged := List.replicate 16 0 }
    let p : Dev := { sampling {} with tim := { running := true }, par := { active := [(pkey P.sar_seq_len 0, 1), (pkey P.sar_seq_mode 0, 1), (pkey P.sar_seq_period_ns 0, 10000)] } }
    let f : Dev := { m with sar := { m.sar with refFault := true } }
    (inCycle.sarRuns 3 = true ∧ (inCycle.sarSeq 3).run = false ∧ inCycle.pvi P.sar_seq_mode 3 ≠ 1)
      ∧ (({ p with sar := { p.sar with seq := [(0, { len := 1 })] } } : Dev).sarRuns 0 = true ∧ (p.at 0).pacedDue 0 = true ∧ (p.at 3000).pacedDue 0 = false ∧ p.pvi P.sar_seq_mode 0 = 1)
      ∧ ((ofDev c).now 99 < (c.sarSeq 0).due ∧ (c.sarSeq 0).due ≤ (ofDev c).now 100 ∧ c.sar.settling = false)
      ∧ ((c.sarSeq 0).run = true ∧ (c.sarSeq 0).cal = none ∧ (c.sarSeq 0).stop = false ∧ (c.sarSeq 0).slots[(c.sarSeq 0).pos]? = some (23, 0xC00F)
        ∧ (c.sarSeq 0).slots[(c.sarSeq 0).pos + 1]? = some (22, 0xC00F) ∧ slotCh 0xC00F < 16 ∧ slotDr 0xC00F = true
        ∧ slotQ 0xC00F = true ∧ (c.sarSeq 0).bucket + 64 < 4096 ∧ (-32768 : Int) ≤ -32768 ∧ (32767 : Int) ≤ 32767
        ∧ ({ stop := true } : SarSeq).stop = true ∧ 0 + 1 < (c.sarSeq 0).slots.length)
      ∧ ((m.sarSeq 0).slots[(m.sarSeq 0).pos]? = some (23, 0x8017) ∧ slotCh 0x8017 = 23 ∧ m.sar.refFault = false ∧ m.refOff 0 = true ∧ f.sar.refFault = true)
      ∧ (((sampling { bucket := 4032 }).sarSeq 0).bucket = 4032 ∧ ((sampling { bucket := 4032 }).sarSeq 0).disabled = false)
      ∧ ((e.sarSeq 0).slots.length ≤ (e.sarSeq 0).pos ∧ (∀ z ∈ (e.sarSeq 0).slots, z.1 < 24) ∧ (e.sarSeq 0).noPush = false ∧ (e.sarSeq 0).staged ≠ []
        ∧ e.pushFull (e.pni P.sar_queue 0) (e.queue (e.pni P.sar_queue 0)) (granules (padItem (e.sarSeq 0).staged)) false = false
        ∧ (e.queue (e.pni P.sar_queue 0)).partials.get 0 68 = 0 ∧ e.pvi P.sar_seq_mode 0 ≠ 0 ∧ ({ noPush := true } : SarSeq).noPush = true)
      ∧ (({ settling := true } : Sar).settling = true ∧ 0 + ticksOfMs 1 ≤ (ofDev e).now 625000 ∧ (∀ j, j < 4 → (inCycle.sarSeq j).stop = false)) := by decide

/-- A calibration of channel 15 at gain 1 with its conversions taken. -/
def calibrating (full : Bool) (target sum : Int) : SarCal := { cmd := c0, ch := 15, gain := 0, full := full, target := target, n := 4, got := 4, sum := sum }

theorem wit_SarCalibrationInstallsCoefficients :
    let d : Dev := { sampling {} with sar := { seq := [(1, { disabled := true }), (2, { cal := some (calibrating false 0 0) })], ch := [(15, { zeros := [(0, 10)] })] } }
    let m := fun (s : Int) => (16 * s + 2) / (4 : Int)
    let kq := fun (tg s : Int) => (2 * (tg * 2 ^ 34) + (m s - 10)) / (2 * (m s - 10))
    (3 < 4 ∧ 15 < 16 ∧ 0 < 4 ∧ (fenceWaits c0 d.host.inflight false = false ∧ d.precheck c0 0x0070 = none ∧ c0.xfer = .ok))
      ∧ ((d.sarSeq 0).disabled = false ∧ (d.sarSeq 0).cal = none ∧ (d.sarChan 15).zeros.find 0 ≠ none ∧ (d.sarChan 14).zeros.find 0 = none
        ∧ (d.sarSeq 1).disabled = true ∧ (d.sarSeq 2).cal = some (calibrating false 0 0) ∧ (d.sarSeq 2).calWait = [])
      ∧ ((calibrating true 0 0).got = (calibrating true 0 0).n ∧ 0 < (calibrating true 0 0).n ∧ ({ calibrating true 0 0 with sat := true } : SarCal).sat = true
        ∧ ({ calibrating true 0 0 with got := 3 } : SarCal).got < (calibrating true 0 0).n ∧ c0.xfer = .ok
        ∧ (m 4096).natAbs ≤ 16384 ∧ 16384 < (m 4097).natAbs ∧ (d.sarChan 15).zeros.find 0 = some 10 ∧ 10 < m 4000
        ∧ 966367642 ≤ kq 1000 4000 ∧ kq 1000 4000 ≤ 1181116006 ∧ kq 500 4000 < 966367642) := by decide

/-- Cycle 4: control cycle 2 starts. REF chain 0 has an output, arm 0 a record of cycle 3 beyond its trip current. -/
def leading : Dev := { inCycle with
  cyc := { inCycle.cyc with k := 4 }
  meas := { ch := [(96, { on := true, oks := [⟨0x44000000, 0, 1, 0, 80⟩] })] }
  ctl := { meas := [(0, ⟨3, 0, true, false, false, 3000000, 100, 4, 4, 0⟩)] } }

theorem wit_LawsRunFromTheSnapshot :
    let d := leading
    let v : Dev := { d with ctl := { handover := true }, mode := { conv := .deblocked }, par := { active := [(pkey P.ctl_fb_react 0, 1)] } }
    let r : LawRun := { k := 4, inp := {}, laws := {}, outer := true, preset := false, entry := false, hold := false, gridLost := false }
    let l : Dev := { v with ctl := { lawRun := some r }, par := { active := [(pkey P.ctl_app 0, 2), (pkey P.ctl_i_prio 0, 1)] } }
    (d.leadWorks = true ∧ inCycle.leadWorks = true ∧ inCycle.cyc.k % max 1 (inCycle.pn P.ctl_n_ctl) ≠ 0 ∧ d.cyc.k % max 1 (d.pn P.ctl_n_ctl) = 0
        ∧ bitN d.mode.fnEnable 4 = true ∧ d.mode.reqs = [] ∧ (d.refInput 4 (d.pn P.ctl_src_udc)).1.isSome = true
        ∧ (d.ctl.meas.find 0).isSome = true ∧ 3 + 1 = d.cyc.k ∧ f32lt (d.pf P.ctl_i_arm_trip_a) (f32abs (f32ofRat 3000000 1000)) = true
        ∧ bitN d.mode.causes 4 = false)
      ∧ (v.mode.conv = .deblocked ∧ v.ctl.holdN = none ∧ v.ctl.meas.find 5 = none ∧ v.pv P.ctl_fb_react = 1 ∧ bitN v.ctl.lost 9 = false ∧ d.pv P.ctl_fb_react = 0
        ∧ v.ctl.handover = true)
      ∧ (l.ctl.lawRun = some r ∧ r.done = 0 ∧ ({ r with done := 4 } : LawRun).done = 4 ∧ r.hold = false ∧ l.ctl.host = false ∧ v.profUsed 0 = true
        ∧ (r.laws.prof.get {} 0).active = false ∧ l.isDrive = true ∧ r.laws.obsValid = false ∧ l.pv P.ctl_i_prio = 1) := by decide

/-- Six records from cycle 6 on, one for each arm. -/
def recs : List RefRec := (List.range 6).map fun a => ⟨6, 2, a, 0, 100, 0⟩

theorem wit_RecordsLeaveAtTheDeadline :
    let r : LawRun := { k := 4, inp := {}, laws := {}, outer := true, preset := false, entry := false, hold := false, gridLost := false, done := 5, recs := recs }
    let d : Dev := { leading with ctl := { lawRun := some r }, fab := { links := [(0, { width := 2 })] } }
    let m : Dev := { d with ctl := { lastRec := [(0, ⟨4, 2, 0, 0, 50, 0⟩)] } }
    let h : Dev := { m with ctl := { host := true, lastRec := [(1, ⟨4, 2, 1, 0, 50, 0⟩)], hostQ := [(0, [⟨6, 2, 0, 0, 60, 0⟩])] }, mode := { conv := .deblocked } }
    (d.leadWorks = true ∧ d.decided = true ∧ d.ctl.host = false ∧ d.ctl.lawRun = some r ∧ r.k = d.cyc.k / 2 * 2 ∧ r.done = 5 ∧ r.recs.map (·.arm) = List.range 6
        ∧ max 1 (d.pn P.ctl_n_ctl) = 2 ∧ d.linkUp 0 = true)
      ∧ (bitN m.mode.fnEnable 4 = true ∧ m.ctl.lawRun = none ∧ m.ctl.lastRec.find 0 = some ⟨4, 2, 0, 0, 50, 0⟩ ∧ m.ctl.host = false ∧ m.ctl.misses = 0
        ∧ ({ m.ctl with misses := 1 } : Ctl).misses = 1)
      ∧ (h.ctl.host = true ∧ h.ctl.block = false ∧ h.ctl.hostNew = [] ∧ 0 ≤ h.hostStep ∧ h.convAt 6 = .deblocked ∧ h.ctl.misses ≠ 1
        ∧ (h.ctl.hostQ.get [] 0).find? (fun x => x.c0 == 6) = some ⟨6, 2, 0, 0, 60, 0⟩ ∧ h.ctl.hostDiff.get 0 0 = 0
        ∧ (h.ctl.hostQ.get [] 1).find? (fun x => x.c0 == 6) = none ∧ h.ctl.lastRec.find 1 = some ⟨4, 2, 1, 0, 50, 0⟩) := by decide

/-- A finished identification with these slopes. -/
def ended (sl : List F32) (apply : Bool) : IdentRun :=
  { cmd := some c0, apply := apply, started := 0, ended := true, slopes := (List.range 3).map fun x => (x, sl.getD x 0) }

theorem wit_SupervisorsBlockAndIdentificationEnds :
    let d : Dev := { leading with ctl := { holdN := some 1000, fe := [(6, 0)] } }
    let same := ended [0x3C23D70A, 0x3C23D70A, 0x3C23D70A] true
    (d.ctl.holdN = some 1000 ∧ d.holdLimit ≤ 1000 + 1 ∧ bitN d.mode.causes 2 = false)
      ∧ (6 < 7 ∧ d.ctl.fe.find 6 = some 0 ∧ ticksOfMs (d.pni P.ctl_fe_t_ms 6) ≤ (ofDev d).now 125000000 - 0 ∧ bitN d.ctl.feUp 6 = false)
      ∧ (same.ended = true ∧ (identResult same).2 = false ∧ same.bad = false ∧ d.alone = true ∧ c0.xfer = .ok ∧ same.cmd = some c0
        ∧ (identResult (ended [0x3C23D70A, 0x3D23D70A, 0x3C23D70A] false)).2 = true) := by decide

theorem wit_ControlChangesAreAgreed :
    let d := leading
    let off : Dev := { d with mode := { fnEnable := 0xF } }
    let idn : Dev := { d with ctl := { ident := some (ended [] true) } }
    let q : Dev := { d with ctl := { hostQ := [(5, (List.range 64).map fun i => ⟨100 + 2 * i, 2, 5, 0, 0, 0⟩)] } }
    let w : CtlChange := ⟨.source true, 4, false, some c0⟩
    (d.convLead = true ∧ fenceWaits c0 d.host.inflight false = false ∧ c0.xfer = .ok ∧ (∀ op ∈ [0x0080, 0x0081, 0x0082, 0x0083], d.precheck c0 op = none)
        ∧ bitN d.mode.fnEnable 4 = true ∧ bitN off.mode.fnEnable 4 = false ∧ off.precheck c0 0x0080 = none ∧ d.alone = true)
      ∧ (f32le (d.pfi P.ctl_prof_min 5) 0 = true ∧ f32le 0 (d.pfi P.ctl_prof_max 5) = true ∧ d.ctl.ident = none ∧ idn.ctl.ident ≠ none ∧ ¬ 6 < 6 ∧ d.identAllowed = false)
      ∧ ((6 % max 1 (d.pn P.ctl_n_ctl) = 0 ∧ d.cyc.k < 6 ∧ (ofDev d).now 0 < d.cyc.tk + (6 - d.cyc.k) * d.tModTicks - ticksOfNs 2500 ∧ 2 = max 1 (d.pn P.ctl_n_ctl))
        ∧ (¬ d.cyc.k < 4) ∧ 64 ≤ (q.ctl.hostQ.get [] 5).length ∧ (q.ctl.hostQ.get [] 5).any (fun x => x.c0 == 6) = false
        ∧ (q.ctl.hostQ.get [] 5).any (fun x => x.c0 == 100) = true ∧ ((d.at 0).pushRef ⟨6, 2, 0, 0, 0, 0⟩).2 = none)
      ∧ (d.cyc.k < 5 ∧ ([w].filter fun w => !w.acked && decide (w.apply ≤ d.cyc.k)) = [w] ∧ w.cmd = some c0) := by decide

set_option maxRecDepth 4096 in
/-- Identification is allowed with no current and every profile at 0, where the magnitude of no current is below its limit. -/
theorem wit_ControlChangesAreAgreed_ident (h : ∀ x, Config.fsqrt x = x) :
    ({ leading with mode := { conv := .deblocked } } : Dev).identAllowed = true := by
  simp only [Dev.identAllowed, fmag, h]; decide

/-! ## Fabric and twins -/

/-- The device with lane 4 (the first of port T). -/
def withLane (l : Lane) : Dev := { inCycle with fab := { lanes := [(4, l)] } }

theorem wit_LanesComeUpStageByStage :
    let d := withLane { stage := .hello }
    let x : Ident := ⟨9, true, 0, 0, 2, 0, d.pni P.fab_rate 2, 1⟩
    let l : Lane := { stage := .delay, results := List.replicate 15 100 ++ [600], delay := 35001 }
    (4 < 8 ∧ d.portEnabled 2 = true ∧ (d.lane 0).stage = .detect ∧ (d.lane 4).stage = .hello ∧ (d.lane 4).accepted = false ∧ (d.lane 4).fast = false)
      ∧ (l.fast = false ∧ 16 ≤ l.results.length ∧ (∀ y ∈ l.results.drop (l.results.length - 16), 100 ≤ y ∧ y ≤ 600) ∧ 600 ≤ 100 + 500 ∧ 35000 < l.delay
        ∧ ((withLane l).lane (otherLane 4)).stage ≠ .up ∧ ((withLane l).link 2).width = 0)
      ∧ (d.identityOk 2 x = true ∧ d.identityOk 2 { x with seg := 1 } = false)
      ∧ (LaneStage.timeout .hello = some 200 ∧ (d.lane 4).began + ticksOfUs 200 ≤ (ofDev d).now 125000 ∧ (d.lane 4).began + ticksOfUs 5 ≤ (ofDev d).now 3125
        ∧ ({ fast := true, stage := .block } : Lane).fast = true)
      ∧ ((d.link 2).reported = false ∧ ({ started := some 0 } : Link).started = some 0 ∧ 0 + ticksOfMs 3 ≤ (ofDev d).now 1875000) := by decide

theorem wit_LanesRetrainRetireAndIdle :
    let d := withLane { stage := .up }
    let r : Dev := withLane { stage := .retired }
    (4 < 8 ∧ (d.lane 4).stage = .up ∧ (d.lane 4).partnerIdle = false ∧ (d.lane 5).stage ≠ .up ∧ ({ width := 1 } : Link).width = 1)
      ∧ (min 65535 ((d.lane 4).bucket + 64) < d.pn P.fab_err_limit ∧ (d.lane 4).badRun + 1 < 8 ∧ 8 ≤ ({ badRun := 7 } : Lane).badRun + 1
        ∧ d.pn P.fab_err_limit ≤ min 65535 (({ bucket := 4032 } : Lane).bucket + 64))
      ∧ (({ lossAt := some 0, stage := .block } : Lane).lossAt = some 0 ∧ 0 + ticksOfMs 3 ≤ (ofDev d).now 1875000 ∧ ([] : List Nat).length < 7
        ∧ 7 ≤ ((List.replicate 7 0).filter fun x => decide ((ofDev d).now 1875000 < x + ticksOfS 10)).length)
      ∧ (fenceWaits c0 r.host.inflight false = false ∧ c0.xfer = .ok ∧ r.precheck c0 0x00A0 = none ∧ r.mode.conv = .deEnergised ∧ (r.lane 4).stage = .retired
        ∧ ({ r with mode := { conv := .blocked } } : Dev).mode.conv ≠ .deEnergised)
      ∧ (d.mode.conv = .deEnergised ∧ (d.lane 4).idle = false
        ∧ (d.lane 4).busyAt + ticksOfUs (d.pn P.fab_idle_us) ≤ (ofDev d).now 625000) := by decide

theorem wit_LaneTimingIsMeasured :
    let d := withLane { stage := .up, lastTx := some 0 }
    let m := withLane { stage := .delay, sinceSkip := 4096 }
    let f := fun (pads : Int) => pads * 16 * 10000000 / ((12500000000 / 2 ^ d.pni P.fab_rate 2 : Nat) : Int)
    (65535 < 65536 ∧ (d.lane 4).stage = .up ∧ (d.lane 4).idle = false ∧ (d.lane 4).lastTx = some 0 ∧ (⟨0, some 0⟩ : DelayMsg).tLast = some 0
        ∧ (m.lane 4).stage = .delay ∧ (m.lane 4).idle = false)
      ∧ (4096 ≤ (m.at 0).sinceSkip 4 ∧ (d.at 0).sinceSkip 4 < 4096 ∧ (∀ x ∈ ((m.at 0).link 2).tx, x.blk ≠ .skip))
      ∧ ((-8 ≤ (53 : Int) - 32 - 16 * 1 ∧ (53 : Int) - 32 - 16 * 1 < 8 ∧ ((53 : Int) - 32) % 16 ≠ 8 ∧ ((1 : Nat) : Int) - 112 ≤ 1 ∧ (1 : Int) ≤ ((1 : Nat) : Int)))
      ∧ ((f 0).natAbs ≤ 2000 ∧ 2000 < (f 200000).natAbs ∧ (f 200000).natAbs ≤ 3000 ∧ 3000 < (f 250000).natAbs) := by decide

/-- A MESSAGE unit of one block for the device at this address. -/
def unitTo (dest : Option Nat) (hops : Nat) : FabUnit := ⟨false, 0, dest, 9, hops, 1, 64, .bytes []⟩

theorem wit_UnitsPassTheFabric :
    let b : TxBlock := ⟨unitTo (some 9) 2, 0⟩
    let d : Dev := { inCycle with fab := { lanes := [(0, { stage := .up, partner := some ⟨8, false, 1, 0, 1, 0, 0, 1⟩ })],
                                           links := [(0, { width := 1, rxN := 1, unacked := [b], queue := [b] })], known := [(0, ⟨0, 0, 1, 9⟩)],
                                           delivered := [(9, 2)] } }
    (3 < 4 ∧ d.fab.known.find (4 * 0 + 1) ≠ some ⟨0, 1, 0, 9⟩ ∧ d.fab.known.find (4 * 0 + 0) = some ⟨0, 0, 1, 9⟩)
      ∧ (0 < (0 + 257 - (d.link 0).base) % 256 ∧ (0 + 257 - (d.link 0).base) % 256 ≤ (d.link 0).unacked.length ∧ (255 + 257 - (d.link 0).base) % 256 = 0
        ∧ (d.link 0).unacked.length ≤ 128 ∧ (d.link 0).unacked ≠ [] ∧ (d.link 0).sentAt + ticksOfUs 20 ≤ (ofDev d).now 12500 ∧ 0 < (d.link 0).rxN)
      ∧ (1 / 2 = 0 ∧ (d.link 0).rxSeq ≠ 255 ∧ (d.link 0).rxSeq = 0 ∧ 64 ≤ (if (unitTo none 2).bulk then 4194304 else 65536) ∧ (unitTo none 255).hops < 256
        ∧ (unitTo none 2).kind ≤ 3 ∧ (9, 1) ∉ d.fab.delivered ∧ (9, 2) ∈ d.fab.delivered ∧ (unitTo none 2).src ≠ d.addr ∧ 8 ≠ d.addr ∧ d.routePort 8 = some 0
        ∧ (∀ c ∈ d.fab.casts, (c.1, c.2.1) ≠ ((unitTo none 2).src, (unitTo none 2).id))) := by
  decide

/-- A duplex device with this twin unit, in cycle 5. -/
def twinned (w : Twin) : Dev := { inCycle with par := { active := [(pkey P.dup_mode 0, 1)] }, twin := w }

/-- Port T up, with the twin's address known. -/
def toTwin : Fabric := { links := [(2, { width := 2 })], lanes := [(4, { stage := .up, partner := some ⟨9, true, 0, 0, 2, 0, 0, 1⟩ })] }

/-- A drone of this cycle, letter, role, epoch and lease. -/
def drone (cycle : Nat) (b : Bool) (role epoch lease : Nat) : Drone := ⟨cycle, b, role, false, true, true, true, true, epoch, lease, 0, 0, 0, 0, 0, 0, 0⟩

theorem wit_DronesCarryLeaseAndEpoch :
    let s := twinned { role := .standby, stage := .ready, lExp := 20, epoch := 3, misRun := 7, digests := [(3, 1)] }
    let h := twinned { role := .holder, epoch := 3, digests := [(3, 0)] }
    let j := twinned {}
    let f : HbFrame := ⟨true, 1, false, true, true, 5, 3, 21, 0, true⟩
    (s.duplex = true ∧ ({ s with fab := toTwin } : Dev).linkUp 2 = true ∧ ({ s with fab := toTwin } : Dev).twinAddr ≠ none ∧ ({ f with ok := false } : HbFrame).ok = false ∧ 1 ≤ (drone 5 true 1 3 21).role ∧ (drone 5 true 3 3 21).role ≤ 3 ∧ (drone 5 false 1 3 21).twinB = s.boot.twinSel ∧ s.twin.strap = false
        ∧ (drone 5 true 1 3 21).twinB ≠ s.boot.twinSel)
      ∧ (s.twin.role = .standby ∧ s.twin.lExp ≤ (drone 5 true 1 3 20).lease ∧ (drone 5 true 1 3 19).lease < s.twin.lExp ∧ s.twin.lostHolder = false
        ∧ (drone 5 true 1 3 21).cycle = s.cyc.k ∧ s.twin.digests.find (5 - 2) = some 1 ∧ s.twin.compared < 5 - 2 ∧ (1 : BitVec 64) ≠ (drone 5 true 1 3 21).digest
        ∧ s.twin.stage ≠ .sync ∧ s.pn P.dup_dig_limit ≤ s.twin.misRun + 1)
      ∧ (h.twin.role = .holder ∧ h.twin.epoch < (drone 5 true 1 4 21).epoch ∧ h.twin.demote = none ∧ (drone 5 true 2 4 21).role = 2
        ∧ h.twin.digests.find (5 - 2) = some 0 ∧ h.twin.compared < 5 - 2)
      ∧ (j.twin.role = .joining ∧ (drone 5 true 1 4 21).cycle ≤ j.cyc.k ∧ j.twin.strap = false ∧ j.twin.lastDrone = none
        ∧ j.twin.joinAt + ticksOfMs (j.pn P.dup_join_ms) ≤ (ofDev j).now 125000000
        ∧ ({ bootAt := some 0 } : Twin).bootAt = some 0 ∧ 0 + min (ticksOfMs (j.pn P.dup_join_ms)) (ticksOfMs 1000) ≤ (ofDev j).now 125000000)
      ∧ (f.ok = true ∧ f.twinB ≠ s.boot.twinSel ∧ f.cycle = s.cyc.k % 2 ^ 32 ∧ f.lease = (if f.role = 1 then 21 % 65536 else 0)
        ∧ ({ f with role := 2, lease := 0 } : HbFrame).role ≠ 1 ∧ s.cyc.k < 21 + 32768 ∧ 21 < s.cyc.k + 32768
        ∧ ({ role := .standby, stage := .unfit } : Twin).stage = .unfit) := by decide

theorem wit_StateTransferAndHandover :
    let s := twinned { role := .standby, stage := .sync, sync := some ⟨4, none⟩ }
    let h := twinned { role := .holder, lastDrone := some (drone 5 true 2 3 0) }
    let w : Dev := { s with cyc := { s.cyc with k := 4100 } }
    (47 < 48 ∧ s.cyc.k < 6 ∧ (⟨47, .fail, 6⟩ : TwinChange) ∉ s.twin.changes ∧ h.twin.role = .holder)
      ∧ (s.twin.role = .standby ∧ s.twin.stage = .sync ∧ s.twin.synced = false ∧ s.twin.sync = some ⟨4, none⟩
        ∧ 4 + w.pn P.dup_sync_window ≤ w.cyc.k ∧ (w.twin.syncFails.filter fun a => decide ((ofDev w).now 0 < a + ticksOfS 10)).length < 2)
      ∧ (s.duplex = true ∧ cfgExcluded (pkey P.mod_n_min 0 / 65536) = false ∧ (paramDef? (pkey P.mod_n_min 0 / 65536)).isSome = true
        ∧ cfgExcluded (pkey P.sys_dev_addr 0 / 65536) = true)
      ∧ (fenceWaits c0 h.host.inflight false = false ∧ c0.xfer = .ok ∧ h.precheck c0 0x00B0 = none ∧ h.precheck c0 0x00B1 = none
        ∧ h.twin.lastDrone = some (drone 5 true 2 3 0) ∧ (drone 5 true 2 3 0).ready = true ∧ (drone 5 true 2 3 0).tOk = true ∧ (drone 5 true 2 3 0).hbOk = true
        ∧ h.twin.t.off = false ∧ h.twin.hb.off = false ∧ h.twin.rel = none ∧ s.twin.role ≠ .holder ∧ h.twin.role ≠ .standby) := by decide

set_option maxRecDepth 8192 in
/-- A device without links is unfit; with every link at full width nothing stands against it. -/
theorem wit_DronesCarryLeaseAndEpoch_fit :
    (twinned { role := .standby, stage := .ready }).unfitReasons ≠ 0
      ∧ ({ twinned { role := .standby, stage := .unfit } with
            fab := { links := [(0, { width := 2 }), (1, { width := 2 }), (3, { width := 2 })] } } : Dev).unfitReasons = 0 := by decide

/-! ## Time and the recorder -/

/-- A TIME message of this root and generation with this control time in ticks. -/
def msg (root m gen tick : Nat) : TimeMsg := ⟨root, m, gen, 0, true, false, false, false, false, 6250, 0, 0, tick, 0, 0, 0, 0, 100⟩

/-- A device that follows root 9 of generation 1. -/
def following : Dev := { inCycle with tim := { running := true, known := true, root := 9, gen := 1, src := some 0, lastAcc := some 0, claimCycles := 256 },
                                      fab := { links := [(0, { width := 2 })] } }

theorem wit_ControlTimeFollowsTheRoot :
    let d := following
    let u := d.tim
    (0 < 8 ∧ 0 / 2 ≠ 2 ∧ (msg 9 0 1 0).tMod = d.tModTicks ∧ u.same (msg 9 0 1 0) = true ∧ u.isRoot = false ∧ (msg 9 0 1 0).acc + 500 ≤ 5000
        ∧ (∀ p, p < 4 → d.usable p = none) ∧ (msg 9 0 1 0).tCross = false ∧ (((0 : Int) - u.ct.at 0).natAbs : Int) ≤ d.stepLimit
        ∧ u.lastAcc = some 0 ∧ (0 : Int) < 1)
      ∧ (d.stepLimit < ((d.msgTime (msg 9 0 1 625) - u.ct.at 0).natAbs : Int) ∧ u.src = some 0 ∧ u.outRun < 2 ∧ 2 ≤ ({ u with outRun := 2 } : TimeUnit).outRun
        ∧ d.mode.conv = .deEnergised)
      ∧ (u.prefers (msg 8 0 1 0) = true ∧ ({ u with isRoot := true } : TimeUnit).isRoot = true ∧ u.prefers (msg 10 0 1 0) = false ∧ u.same (msg 10 0 1 0) = false
        ∧ ({ msg 9 0 1 0 with tMod := 1 } : TimeMsg).tMod ≠ d.tModTicks)
      ∧ (0 < 3 ∧ d.timePortUp 0 = true ∧ u.lastAcc.isSome = true ∧ ({ u with src := none, ctValid := true } : TimeUnit).ctValid = true
        ∧ d.pn P.time_root_loss_cyc ≤ ({ u with lossCycles := 65 } : TimeUnit).lossCycles
        ∧ ({ u with listening := true } : TimeUnit).listened = false)
      ∧ (({ d with par := { active := [(pkey P.time_root_arm 0, 5)] } } : Dev).rootDistance = some 1 ∧ d.leads = true ∧ (1 + 1) * d.pn P.time_root_loss_cyc ≤ u.claimCycles)
      ∧ (({ twinned {} with fab := toTwin } : Dev).duplex = true ∧ ({ twinned {} with fab := toTwin } : Dev).linkUp 2 = true ∧ ({ twinned {} with fab := toTwin } : Dev).twinAddr ≠ none ∧ d.log.last.find (Ev.TIME_CT_WRAP_NEAR * 65536) = none) := by decide

/-- A root beyond half of the cycle numbers. -/
theorem wit_ControlTimeFollowsTheRoot_wrap :
    let d : Dev := { inCycle with tim := { running := true, isRoot := true, ct := { v0 := 6250 * 2 ^ 32 * (2 ^ 47 + 1) } } }
    d.tim.isRoot = true ∧ 2 ^ 47 < (d.at 0).ctCycle (d.at 0).ctNow := by decide

theorem wit_WallTimeFollowsItsMaster :
    let d : Dev := { run0 with tim := { running := true, pendStep := some 5, master := some 1, lostMaster := some 0, wallValid := true },
                               par := { active := [(pkey P.time_ptp_port_en 0, 3)] } }
    let h : Dev := { d with par := { active := [(pkey P.time_policy 0, 2)] } }
    (bitN (d.pn P.time_ptp_port_en) (bit01 true) = true ∧ d.tim.wallFab = false ∧ d.tim.wallValid = true ∧ run0.tim.wallValid = false
        ∧ ¬ d.pv P.time_step_limit_ns * 65536 < ((65536000 : Int).natAbs : Int) ∧ d.pv P.time_step_limit_ns * 65536 < ((655360001 : Int).natAbs : Int)
        ∧ d.tim.wallHold = false ∧ d.holdsOver = false ∧ h.holdsOver = true ∧ ({ d.tim with wallFab := true } : TimeUnit).wallFab = true
        ∧ d.pn P.time_wall_check_ns * 65536 < (655360001 : Int).natAbs)
      ∧ (d.tim.master ≠ some 2 ∧ d.tim.master = some 1 ∧ run0.tim.lostMaster = none ∧ d.tim.master ≠ none ∧ d.tim.lostMaster = some 0
        ∧ d.tim.lastAnn + ticksOfS 3 ≤ (ofDev d).now 1875000000
        ∧ 0 + ticksOfS (d.pn P.time_holdover_max_s) ≤ (ofDev d).now 375000000000)
      ∧ ((fenceWaits c0 d.host.inflight false = false ∧ d.precheck c0 0x00C0 = none ∧ c0.xfer = .ok) ∧ d.tim.pendStep = some 5 ∧ run0.tim.pendStep = none) := by decide

/-- Every corrected offset, at both bounds too, is that of some offset of the MAC, whatever the link's speed. -/
theorem wit_WallTimeFollowsItsMaster_offset (d : Dev) (port : Bool) : ∀ o : Int, ∃ ofs, d.pinOffset port ofs = o :=
  fun o => ⟨o - (((d.macCorr port).2 : Int) - (d.macCorr port).1) * 65536 / 2000, by unfold Dev.pinOffset; omega⟩

/-- A complete record of one segment. -/
def record (id : Nat) : Record :=
  { id := id, cause := 1, primary := 0, trig := 0, q := 0, late := none, wallV := false, ctV := true, wall := 0, nMissed := 0, nSeg := 1, pre := 0, post := 0,
    lAlign := 0, tbcDec := 0, cfg := 0, chans := [], complete := true, segs := [0] }

theorem wit_RecorderCommands :
    let r : Rec := { records := [record 1], used := [0], pool := 4 }
    let d : Dev := { run0 with acq := r }
    let a : Dev := { run0 with acq := { armed := true } }
    let b : Dev := { run0 with acq := { r with current := some (record 2) } }
    (fenceWaits c0 d.host.inflight false = false ∧ c0.xfer = .ok ∧ (∀ op ∈ [0x00D0, 0x00D1, 0x00D2, 0x00D3, 0x00D4, 0x00D5], d.precheck c0 op = none))
      ∧ (1 ≤ 1 ∧ a.acq.armed = true ∧ d.acq.armed = false ∧ d.acq.current = none ∧ (d.mode.doms.get {} 8).faulty = false ∧ d.acq.disarm = none
        ∧ b.acq.current ≠ none ∧ a.acq.waiting = false ∧ a.acq.current = none ∧ a.acq.closing = [] ∧ a.acq.forced = none ∧ d.acq.closing = [])
      ∧ (d.acq.records.find? (fun y => y.id == 1) = some (record 1) ∧ 0 + 0 ≤ recBytes (record 1).chans ∧ (∀ y ∈ d.acq.records, y.id ≠ 2)
        ∧ (∀ y ∈ d.acq.current.toList ++ d.acq.closing, y.id ≠ 1) ∧ d.recReading 1 = false ∧ d.acq.waiting = false
        ∧ record 2 ∈ b.acq.current.toList ++ b.acq.closing ∧ (record 2).id = 2 ∧ (record 1).damaged = false ∧ 64 ≤ 64) := by decide

/-- A configuration that passes the checks of REC_ARM: channel 0 records the law channel. -/
theorem wit_RecorderCommands_plan :
    let d : Dev := { run0 with flt := { dramPresent := true },
                               par := { active := [(pkey P.rec_ch_src 0, 0x7000), (pkey P.rec_pre_ns 0, 0), (pkey P.rec_post_ns 0, 0), (pkey P.rec_pool_mb 0, 4)] } }
    (match d.armPlan with
      | .ok p => decide (p.k ≤ d.poolSegs)
      | .error _ => false) = true
    ∧ (match run0.armPlan with
      | .ok _ => false
      | .error _ => true) = true := by decide

theorem wit_RecordsAreDecidedAndExported :
    let u : RecUnit := { role := 1, typ := 6, src := 0x9000 }
    let f : RecFire := ⟨0, 0, 0, 0, 0, none⟩
    let d : Dev := { run0 with tim := { running := true, gen := 1 }, acq := { armed := true, forced := some (c0, 0), pool := 4, pulses := [(3, 0, true)] },
                               par := { active := [(pkey P.rec_bus_mode 0, 1)] }, fab := { links := [(0, { width := 2 })] } }
    let g : Dev := { d with acq := { armed := true, fires := [f], units := [u], pool := 4, hist := [(0, [])] } }
    let m : TrigMsg := ⟨9, 0, false, false, 1, 0, 1, 0, 0, 0⟩
    (d.acq.armed = true ∧ d.acq.waiting = false ∧ d.acq.current = none ∧ d.acq.made = 0 ∧ d.pn P.rec_count = 0 ∧ d.acq.units = [] ∧ d.acq.fires = []
        ∧ d.acq.rearmAt = none ∧ d.acq.forced = some (c0, 0) ∧ c0.xfer = .ok ∧ d.acq.eligible ≤ max 0 d.acq.next ∧ max 0 d.acq.next < ((d.at 25).ctTicks - d.acq.alignTicks) / 25)
      ∧ (g.acq.forced = none ∧ ({ g.acq with hist := [] } : Rec).hist = [] ∧ g.acq.fires = [f] ∧ g.acq.units[f.unit]? = some u ∧ f.unit < 16 ∧ (∀ v ∈ g.acq.units, v.typ ≠ 5)
        ∧ u.role = 1 ∧ u.qual / 16 % 4 = 0 ∧ u.ignore ≤ f.det ∧ g.acq.next ≤ f.slot ∧ g.acq.eligible ≤ f.slot ∧ f.slot < ((g.at 25).ctTicks - g.acq.alignTicks) / 25)
      ∧ 0 < 1 ∧ g.acq.hist ≠ []
      ∧ (3 < 4 ∧ d.acq.pulses.find? (fun p => p.1 == 3) = some (3, 0, true) ∧ (d.acq.lines.get {} 3).sentAt = none ∧ d.pvi P.rec_bus_mode 0 = 1 ∧ 39 < 40
        ∧ (g.acq.lines.get {} 0).accepted = none ∧ g.acq.units = [u] ∧ u.role ≠ 0 ∧ u.typ = 6 ∧ u.src = 0x9000 + 0 ∧ 40 ≤ 95 ∧ 95 < 96 ∧ 96 ≤ 96)
      ∧ (m.gen = d.tim.gen ∧ ({ m with gen := 2 } : TrigMsg).gen ≠ d.tim.gen ∧ (∀ x ∈ d.acq.casts, x.1 ≠ m.src ∨ x.2.1 ≠ m.recId) ∧ m.hops < 32 ∧ d.linkUp 0 = true
        ∧ 0 ≠ 2 / 2 ∧ m.hops + 1 < 32 ∧ 32 ≤ ({ m with hops := 31 } : TrigMsg).hops + 1
        ∧ ({ u with src := 0xB000 } : RecUnit).src = 0xB000) := by decide

theorem wit_RecordsAreDecidedAndExported_complete :
    let e : Dev := { run0 with tim := { running := true }, acq := { armed := true, current := some (record 1) } }
    let q : Dev := { e with acq := { armed := true, auto := true, closing := [record 1], taken := 25600 } }
    e.acq.closing = [] ∧ e.acq.current = some (record 1) ∧ e.acq.forced = none ∧ (e.at 100).recAllIn (record 1) = true
      ∧ (e.at 0).recAllIn { record 1 with trig := 1000 * 2 ^ 32 } = false
      ∧ q.acq.closing = record 1 :: [] ∧ (q.at 100).recAllIn (record 1) = true ∧ q.acq.armed = true := by decide

/-! ## Modes, the host interface, parameters and queues -/

/-- A transition that this lead has agreed and sent. -/
def agreed (test : Option Test) : Transition := { target := .charging, test := test, apply := 9, agreed := true, cmd := none }

theorem wit_ConverterStateIsChangedByTheLead :
    let d := inCycle
    let f : Dev := { d with par := { active := [(pkey P.mode_lead_arm 0, 5)] } }
    let w : Dev := { d with mode := { trans := some (agreed none) } }
    let g : Dev := { d with mode := { trans := some (agreed (some .simcell)), acks := [⟨0, d.expected, 0, 0, true, true, [], 9⟩] } }
    (fenceWaits c0 d.host.inflight false = false ∧ c0.xfer = .ok ∧ d.precheck c0 0x0010 = none ∧ d.precheck c0 0x0012 = none ∧ (4 : Nat) ≤ 4 ∧ 1 < 4
        ∧ convOf 1 = some .charging ∧ convOf 3 = some .deblocked ∧ f.convLead = false ∧ d.convLead = true ∧ w.mode.trans ≠ none ∧ w.convLead = true
        ∧ transitionAllowed d.mode.conv .deblocked = false ∧ transitionAllowed d.mode.conv .charging = true ∧ d.mode.trans = none ∧ d.boot.cfgBad = false
        ∧ ({ d with par := { active := [(pkey P.mod_n_min 0, 1)] } } : Dev).pn P.mod_n_min ≠ 0
        ∧ ({ d with par := { active := [(pkey P.mod_n_min 0, 1)] } } : Dev).convLead = true ∧ d.alone = true)
      ∧ (2 < 3 ∧ ({ d with mode := { conv := .blocked } } : Dev).mode.conv ≠ .deEnergised ∧ testOf 1 = some .simcell ∧ d.mode.conv = .deEnergised)
      ∧ (f.cyc.k < 6 ∧ f.cyc.run = true ∧ 5 ≤ d.cyc.k ∧ d.mode.units = [] ∧ f.mode.trans = none ∧ testOf 2 = some .selftest ∧ .selftest ≠ d.mode.test
        ∧ convOf 3 ≠ some .faultBlocked ∧ ({ d with mode := { conv := .charging } } : Dev).mode.conv = .charging)
      ∧ (w.mode.trans = some (agreed none) ∧ (agreed none).apply = (⟨7, [], 0, 0, true, true, [], 9⟩ : AckMsg).apply ∧ 65535 < 65536 ∧ 12 < 13 ∧ w.mode.reqs = []
        ∧ (agreed none).agreed = true ∧ (agreed none).mine = true ∧ (agreed none).decided = false
        ∧ ({ agreed none with agreed := false, cmd := some c0 } : Transition).cmd = some c0)
      ∧ (10 < 11 ∧ bitN ({ f.mode with causes := 1024 } : Mode).causes 10 = true)
      ∧ ((g.at 0).failing (agreed (some .simcell)) = none ∧ ((w.at 0).failing (agreed none)).isSome = true ∧ 31 < 32
        ∧ ({ test := .selftest } : Mode).test = .selftest ∧ ({ test := .selftest } : Mode).testDone = false) := by decide

theorem wit_PowerStatesDomainsAndResets :
    let d := run0
    let b : Dev := { d with host := { inflight := [{ gw := none, qp := 1, tag := 1, opcode := 0x0001 }] } }
    let r : Dev := { d with mode := { power := .rest, restAt := some 0, waking := some .idle } }
    (fenceWaits c0 d.host.inflight false = false ∧ c0.xfer = .ok ∧ d.precheck c0 0x0011 = none ∧ d.precheck c0 0x0013 = none ∧ (3 : Nat) ≤ 3
        ∧ (d.mode.conv = .deEnergised ∧ d.mode.test = .none ∧ d.acq.armed = false ∧ d.acq.current = none ∧ d.acq.closing = [])
        ∧ ({ d with acq := { armed := true } } : Dev).acq.armed ≠ false
        ∧ (b.host.inflight.any fun f => !(f.gw == c0.gw && f.qp == c0.qp && f.tag == c0.tag)) = true
        ∧ (d.host.inflight.any fun f => !(f.gw == c0.gw && f.qp == c0.qp && f.tag == c0.tag)) = false
        ∧ d.mode.power = .run ∧ 2 ≤ 2 ∧ 399 < 400 ∧ 400 ≤ 400 ∧ d.pn P.sys_gateway ≠ 1 ∧ 1 < 2
        ∧ ({ d with par := { active := [(pkey P.sys_gateway 0, 1)] } } : Dev).pn P.sys_gateway = 1)
      ∧ (r.mode.power = .rest ∧ d.mode.waking = none ∧ ({ d with mode := { power := .idle, waking := some .run } } : Dev).mode.power = .idle
        ∧ WakeSource.laneEnergy ≠ .modePower ∧ WakeSource.laneEnergy ≠ .fabricUnit ∧ r.mode.restAt = some 0 ∧ r.mode.waking = some .idle
        ∧ 0 + ticksOfS (d.pn P.mode_rest_timer_s) ≤ (ofDev r).now (625000000 * d.pn P.mode_rest_timer_s)
        ∧ (ofDev { r with par := { active := [(pkey P.mode_rest_timer_s 0, 1)] } }).now 624999999 < 0 + ticksOfS 1)
      ∧ (7 < 8 ∧ d.pni P.mode_pmb_addr 7 = 0 ∧ ({ d with par := { active := [(pkey P.mode_pmb_addr 7, 64)] } } : Dev).pni P.mode_pmb_addr 7 ≠ 0
        ∧ ({ missedRun := 2 } : Regulator).missedRun = 2 ∧ (d.regulator 7).lost = false ∧ (d.regulator 7).faulted = false ∧ (d.regulator 7).warned = false
        ∧ pmbFault 0x8000 = true ∧ pmbWarn 1 = true ∧ bitN ({ d with par := { active := [(pkey P.mode_pmb_crit 0, 128)] } } : Dev).boot.version.toNat 0 = false
        ∧ bitN (({ d with par := { active := [(pkey P.mode_pmb_crit 0, 128)] } } : Dev).pn P.mode_pmb_crit) 7 = true)
      ∧ (1 ≤ 11 ∧ 11 < 12 ∧ (d.domain 11).st ≠ .on ∧ ({ st := .on, clamps := false } : Domain).st = .on ∧ (-60 : Int).natAbs ≤ 60 ∧ 60 < (-61 : Int).natAbs
        ∧ ({ st := .on, clamps := false } : Domain).clamps = false ∧ ¬ ((safe 0 high).st = 2 ∧ (safe 0 high).recovery = none) ∧ d.flt.stopped = false
        ∧ ({ State.reset with safe := safe 0 high }).safe.powered = true)
      ∧ ((inputs 0).straps.length = 8 ∧ d.boot.vin = true ∧ d.boot.resetL = false ∧ (inputs 0).ioRails = true ∧ (inputs 0).refclk = true ∧ c0.gw = none
        ∧ (d.qp c0.qp).session = none ∧ (d.qp c0.qp).drop = false) := by decide

/-- A descriptor of this opcode and destination. -/
def desc (op dest : Nat) : Desc := ⟨op, 1, dest, false, false, false, 0, 0, [], [], 0⟩

/-- A device whose queue pair 0 has a descriptor to fetch. -/
def served (q : Qp) : Dev := { run0 with host := { qps := [(0, { q with cfg := 3, sqTail := 1 })] } }

/-- The result of a completed NOP. -/
def doneNop : Inflight := { gw := none, qp := 0, tag := 1, opcode := 0x0001, result := some (stRes Sc.DONE) }

theorem wit_QueuePairsFetchAndComplete :
    let d := served {}
    let g : Dev := { d with par := { active := [(pkey P.sys_gateway 0, 1)] } }
    (7 < 8 ∧ d.serves = true ∧ d.fetchTurn = some 0 ∧ d.host.inflight.length < 256 ∧ (desc 0x0001 d.addr).dest = d.addr ∧ d.host.tunnelled.length < 1024
        ∧ d.fetchTurn ≠ some 7 ∧ d.slotFor 0x0001 = true ∧ (∀ f ∈ d.host.inflight, ¬ (f.gw = none ∧ f.qp = 0 ∧ f.tag = 1))
        ∧ (∀ f ∈ d.host.tunnelled, ¬ (f.qp = 0 ∧ f.tag = 1)) ∧ doneNop.gw = none ∧ doneNop.qp = 0 ∧ doneNop.tag = 1 ∧ opRow? 0xFFFF = none)
      ∧ ((opRow? 0x0001).any (fun r => decide (r.level ≤ (d.qp 0).privilege)) = true ∧ (opRow? 0x0020).isSome = true ∧ (desc 1 5).dest ≠ d.addr ∧ d.pv P.sys_gateway ≠ 1
        ∧ g.pv P.sys_gateway = 1 ∧ ({ g with fab := toTwin } : Dev).routePort 9 ≠ none ∧ g.routePort 9 = none
        ∧ (opRow? 0x0013).any (fun r => decide ((d.qp 0).privilege < r.level)) = true ∧ 16777216 ≤ 16777216 ∧ 65456 ≤ 65456) := by decide

theorem wit_QueuePairsFetchAndComplete_write :
    let d := served {}
    (d.boot.pwrfail = false ∧ (∀ i, i < 8 → (d.qp i).held = none) ∧ d.host.tunHeld = [] ∧ takeReady none 0 [doneNop] = some (doneNop, stRes Sc.DONE, [])
        ∧ takeReady (some 4) 0 [{ doneNop with gw := some 4 }] = some ({ doneNop with gw := some 4 }, stRes Sc.DONE, [])
        ∧ (d.qp 0).session = none ∧ (d.qp 0).drop = false ∧ (d.qp 0).cqFree = true ∧ ({ cqTail := 15 } : Qp).cqFree = false
        ∧ ({ session := some 3 } : Qp).session = some 3 ∧ ({ drop := true } : Qp).drop = true
        ∧ ({ d with boot := { d.boot with pwrfail := true } } : Dev).boot.pwrfail = true)
      ∧ (0 < ({ unsig := 1 } : Qp).unsig ∧ fieldN (d.qp 0).irq.toNat 0 8 = 0 ∧ fieldN (d.qp 0).irq.toNat 8 16 = 0 ∧ fieldN ({ irq := 0x101 } : Qp).irq.toNat 0 8 = 1
        ∧ fieldN ({ irq := 0x101 } : Qp).irq.toNat 8 16 = 1 ∧ ({ unsigAt := 0 } : Qp).unsigAt + ticksOfUs 1 ≤ (ofDev d).now 625 ∧ (d.qp 0).unsig = 0)
      ∧ (d.mode.power = .run ∧ 15 < (d.qp 0).sqSize ∧ (d.qp 0).sqSize ≤ 16 ∧ 15 < (d.qp 0).cqSize ∧ (d.qp 0).cqSize ≤ 16 ∧ (d.qp 1).enabled = false
        ∧ d.qpIdle 1 = true ∧ ({ d with host := { inflight := [doneNop] } } : Dev).qpIdle 0 = false) := by decide

set_option maxRecDepth 8192 in
/-- The general slots are taken: a descriptor that needs one is held. -/
theorem wit_QueuePairsFetchAndComplete_held :
    let d : Dev := { run0 with host := { inflight := (List.range 240).map fun n => { gw := none, qp := 1, tag := n, opcode := 0x0001 } } }
    d.slotFor 0x0022 = false ∧ d.host.inflight.length < 256 := by decide

set_option maxRecDepth 8192 in
theorem wit_SessionsAndTunnelCarryCommands :
    let q : Qp := { cfg := 5, session := some 3 }
    let ask : Tunnelled := { qp := 0, tag := 7, dest := 5, opcode := 1, due := 1000 }
    let h : HostIf := { qps := [(0, q), (1, { cfg := 5 })], sessions := [(3, ⟨0, false, 1, 9, 0, 300⟩)], tunnelled := [ask] }
    let d : Dev := { run0 with host := h, par := { active := [(pkey P.sys_mbx_tls_en 0, 3)] } }
    let fits := fun (d : Dev) (n : Nat) => (d.qp n).enabled && (d.qp n).transport == 2 && (d.qp n).session.isNone && !(d.qp n).drop
    let four : Dev := { d with host := { h with sessions := (List.range 4).map fun k => (k, ⟨k, false, 1, 9, 0, 300⟩) } }
    (2 < 3 ∧ 65535 < 65536 ∧ d.sec.alarm < 2 ∧ bitN (d.pn P.sys_mbx_tls_en) (bit01 true) = true ∧ fits d 1 = true ∧ (∀ i, i < 1 → fits d i = false)
        ∧ h.sessions.find 0 = none ∧ (∀ n, n < 8 → fits run0 n = false) ∧ (∀ k, k < 4 → four.host.sessions.find k ≠ none))
      ∧ (3 < 4 ∧ h.sessions.find 3 = some ⟨0, false, 1, 9, 0, 300⟩ ∧ d.qpIdle 0 = false ∧ ({ d with host := { h with tunnelled := [] } } : Dev).qpIdle 0 = true
        ∧ d.serves = true ∧ q.enabled = true ∧ q.error = false ∧ q.held = none ∧ h.inflight.length < 256 ∧ (desc 1 d.addr).dest = d.addr
        ∧ (d.inflightOf 0).length < q.sqSize ∧ d.slotFor 1 = true ∧ (∀ f ∈ h.tunnelled, ¬ (f.qp = 0 ∧ f.tag = 1))
        ∧ (opRow? 1).any (fun r => decide (r.level ≤ q.privilege)) = true ∧ ({ size := 0 } : Qp).sqSize ≤ 1
        ∧ max 0 d.log.framedAt + ticksOfS 300 ≤ (ofDev d).now (625000000 * 300) ∧ (ofDev d).now 0 < max 0 d.log.framedAt + ticksOfS 300)
      ∧ (4095 < 4096 ∧ 7 < 8 ∧ ({ doneNop with gw := some 4095 } : Inflight).gw = some 4095 ∧ (opRow? 0x0013).any (fun r => decide (0 < r.level)) = true
        ∧ ({ run0 with host := { inflight := (List.range 240).map fun n => { gw := none, qp := 1, tag := n, opcode := 0x0001 } } } : Dev).slotFor 0x0022 = false)
      ∧ (h.tunnelled = [] ++ ask :: [] ∧ ask.result = none ∧ (ofDev d).now 999 < ask.due ∧ ask.due ≤ (ofDev d).now 1000 ∧ (∀ f ∈ h.tunnelled, ¬ (f.qp = 0 ∧ f.tag = 8 ∧ f.result = none))) := by decide

theorem wit_HostReadsAndWritesRegisters :
    let d := run0
    (blockOf 0x30000 = some (.time, 0) ∧ blockOf 0x60100 = some (.sar, 0x100) ∧ blockOf 0x50020 = some (.dup, 0x20) ∧ blockOf 0x10008 = some (.mbx, 8)
        ∧ 0x30000 % 4 = 0 ∧ (23 < 24) ∧ d.mode.power ≠ .rest ∧ blockRests .time = true ∧ blockRests .mbx = false
        ∧ ({ d with mode := { power := .rest } } : Dev).mode.power = .rest)
      ∧ (latchedBy .mbx 8 = [] ∧ d.host.latched.find 0x10008 = none)
      ∧ (blockOf 0x1F00000 = some (.window, 0xF00000) ∧ 0x1F00000 % 4 = 0 ∧ blockOf 0x1000001 = some (.window, 1) ∧ 0x1000001 % 4 ≠ 0)
      ∧ (0x1000000 / 0x1000000 = 1 ∧ d.sec.window = false ∧ 0x30001 % 4 ≠ 0 ∧ blockOf 0x90000 = none
        ∧ d.log.last.find (Ev.MBX_BAR_ACCESS * 65536) = none)
      ∧ (7 < 8 ∧ d.par.lock = false ∧ ({ d with par := { lock := true } } : Dev).par.lock = true ∧ ({ d with sec := { window := true } } : Dev).sec.window = true
        ∧ d.log.ring = [])
      ∧ (fenceWaits c0 d.host.inflight false = false ∧ c0.xfer = .ok ∧ d.precheck c0 0x0001 = none ∧ d.precheck c0 0x0002 = none ∧ d.precheck c0 0x0005 = none
        ∧ healthCount 4 < 2 + 1 ∧ healthCount 9 = 0 ∧ 0 + 48 ≤ 48 ∧ 0 + 3 ≤ 3 ∧ 0 + 2 ≤ 2) := by decide

/-- A register that answers in RUN, and what it latches. -/
theorem wit_HostReadsAndWritesRegisters_value :
    let u := (ofDev run0).dev.at 0
    let e := ({ ofDev run0 with dev := u } : State)
    e.reg .mbx 8 = some 0#32 ∧ e.reg .time 0 ≠ none ∧ e.reg .time 0x78 = none ∧ openBits .time 0x78 = 0xFF ∧ (∀ x ∈ latchedBy .time 0, e.reg .time x ≠ none)
      ∧ ({ run0.host with latched := [(0x30004, 1)] } : HostIf).latched.find 0x30004 = some 1
      ∧ ({ run0.log with last := [(Ev.MBX_BAR_ACCESS * 65536, 0)] } : Log).last.find (Ev.MBX_BAR_ACCESS * 65536) = some 0
      ∧ (ofDev run0).now 0 < 0 + ticksOfS 1 := by decide

theorem wit_ParametersArePendingThenCommitted :
    let d := run0
    let k := pkey P.time_root_arm 0
    let b : Dev := { d with par := { pending := [(k, 1)] } }
    (fenceWaits c0 d.host.inflight false = false ∧ c0.xfer = .ok ∧ (∀ op ∈ [0x0020, 0x0021, 0x0022, 0x0023, 0x0024, 0x0025], d.precheck c0 op = none)
        ∧ paramDef? 0xFFFF = none ∧ (paramDef? P.time_root_arm).isSome = true)
      ∧ ((paramDef? P.time_root_arm).any (fun x => decide (1 ≤ x.count ∧ x.count < 0 + 4096 ∧ 0 + 1 ≤ x.count ∧ 4096 ≠ x.ty.code ∧ x.ty.code = x.ty.code
          ∧ 1 * x.ty.bytes ≤ [(1 : Byte), 0, 0, 0].length ∧ x.range.has 0 (x.ty.ofBytes [(1 : Byte)]) = true ∧ x.range.has 0 (x.ty.ofBytes [(200 : Byte)]) = false)) = true
        ∧ isSafety P.time_root_arm = false ∧ isSafety 0xD000 = true ∧ lockExempt P.time_root_arm = false ∧ d.par.lock = false
        ∧ ({ b.par with lock := true } : Params).lock = true ∧ (b.par.pending.map (·.1)).Nodup)
      ∧ (d.commitRuns = false ∧ ({ d with ctl := { waits := [{ body := .params [] false, apply := 1, acked := true, cmd := none }] } } : Dev).commitRuns = true ∧ d.par.pending = [] ∧ b.par.pending = [(pkey P.time_root_arm 0, 1)] ∧ P.time_root_arm < 65536
        ∧ ({ d with mode := { conv := .blocked } } : Dev).mode.conv ≠ .deEnergised)
      ∧ 257 > 256 ∧ 256 ≤ 256 := by decide

/-- A device whose chains use a loaded set of two coefficients, with a snapshot that the rules pass. -/
def sound : Dev := { run0 with
  meas := { coef := [(16, [0x201#32, 0#32, 1#32, 1#32])] }
  par := { active := [(pkey P.mod_iarm_src 0, 0), (pkey P.meas_cv_slot 0, 16), (pkey P.meas_ct_slot 0, 16)]
             ++ (List.range 8).map (fun n => (pkey P.meas_ref_slot n, 16))
           pending := [(pkey P.link_err_limit 0, 4096)] } }

set_option maxRecDepth 8192 in
theorem wit_ParametersArePendingThenCommitted_commit :
    sound.par.pending ≠ [] ∧ (sound.at 0).commitFails = none ∧ (∀ x ∈ sound.par.pending, keyTakes x.1 = .cycle) := by decide

/-- The parameter of its checks, and values within and beyond its range. -/
theorem wit_ParamSetChecksBeforeItWrites :
    (∀ op ∈ [0x0021], run0.precheck c0 op = none) ∧ fenceWaits c0 run0.host.inflight false = false ∧ c0.xfer = .ok ∧ paramDef? 0xFFFF = none
      ∧ (paramDef? P.time_root_arm).any (fun x => decide (x.count < 0 + 4096 ∧ 0 + 1 ≤ x.count ∧ 4096 ≠ x.ty.code
          ∧ 1 * x.ty.bytes ≤ [(1 : Byte), 0, 0, 0].length ∧ x.range.has 0 (x.ty.ofBytes [(1 : Byte)]) = true ∧ x.range.has 0 (x.ty.ofBytes [(200 : Byte)]) = false)) = true
      ∧ (paramDef? 0xD001).isSome = true ∧ isSafety 0xD001 = true ∧ isSafety P.time_root_arm = false ∧ lockExempt P.time_root_arm = false
      ∧ lockExempt 0xC000 = true ∧ run0.par.lock = false ∧ ({ lock := true } : Params).lock = true := by decide

theorem wit_HostReachesAQueueOnlyAsAllowed :
    let d := run0
    let p : Dev := { d with par := { active := [(pkey P.que_host 1023, 1)] } }
    let q : Dev := { d with par := { active := [(pkey P.que_host 1023, 2)] } }
    q.hostMay 1023 = 2 ∧ q.hostMay 1023 ≠ 1 ∧ 1023 < 1024 ∧ fenceWaits c0 d.host.inflight false = false ∧ c0.xfer = .ok ∧ (∀ op ∈ [0x00E0, 0x00E1, 0x00E2, 0x00E3], d.precheck c0 op = none ∧ p.precheck c0 op = none)
      ∧ d.hostMay 1023 = 0 ∧ p.hostMay 1023 = 1 ∧ d.hostMay 0 ≠ 1 ∧ p.hostMay 1023 ≠ 2 ∧ (p.queue 1023).items = [] ∧ 256 ≤ 256 := by decide

theorem wit_QueuesHoldItemsInOrder :
    let d := run0
    let i : Item := ⟨1, 0, 0, [1]⟩
    let q : Queue := { items := [i], stalled := [(0, [1])], waitPop := true }
    let p : Dev := { d with par := { active := [(pkey P.que_cap_items 1023, 1), (pkey P.que_cap_gran 1023, 64), (pkey P.que_fc_in 1023, 3), (pkey P.que_host 1023, 1)] } }
    (1023 < 1024 ∧ 255 < 256 ∧ 1 ≤ [(1 : Byte)].length ∧ (p.queue 1023).partials.get 0 255 = 0 ∧ p.paused 1023 = false ∧ (p.queue 1023).items.length < p.pni P.que_cap_items 1023
        ∧ (p.queue 1023).total + granules [1] ≤ p.pni P.que_cap_gran 1023 ∧ granules [1] ≤ p.que.free ∧ p.pni P.que_cap_items 1023 ≤ q.items.length
        ∧ p.mayPush 255 = true ∧ p.mayPush 0 = false ∧ ({ p with cyc := { deque := [(0, [.law 0])] } } : Dev).mayPush 0 = true
        ∧ hwProducer 68 = true ∧ p.mayPush 68 = true ∧ hwProducer 0 = false ∧ p.log.last.find (Ev.QUE_OVERFLOW * 65536 + 1023) = none ∧ q.stalled.find 0 = some [1])
      ∧ (q.items = i :: [] ∧ q.waitPop = true ∧ (p.queue 1023).items = [] ∧ 3 < 4 ∧ p.pni P.que_fc_in 1023 = 3)
      ∧ (fenceWaits c0 d.host.inflight false = false ∧ c0.xfer = .ok ∧ (∀ op ∈ [0x00E0, 0x00E1, 0x00E2, 0x00E3], d.precheck c0 op = none) ∧ 1024 ≤ 1024
        ∧ d.hostMay 0 = 0 ∧ p.hostMay 1023 = 1 ∧ p.hostMay 1023 ≠ 2 ∧ 256 ≤ 256 ∧ q.items.length ≤ 1 ∧ (q.items.map fun x => 8 + x.gran * 64).sum ≤ 72
        ∧ ({ p with par := { active := [(pkey P.que_host 1023, 2)] } } : Dev).hostMay 1023 = 2) := by decide

/-! ## Every step -/

theorem wit_EveryStepKeepsTheInvariant :
    let s : State := { ofDev run0 with pending := [.wakeWrite 3] }
    s.Inv ∧ s.otp.rollback ≤ 256 ∧ (match step s with
      | .next s' => decide (s'.pending = [])
      | _ => false) = true := by
  refine ⟨⟨⟨rfl, rfl⟩, rfl, by decide⟩, by decide, by decide⟩

theorem wit_ResetMeetsTheInvariant : State.reset.pending = [] := rfl

theorem wit_NoStepTurnsBack :
    let s : State := { ofDev run0 with pending := [.wakeWrite 3, .nop 4 c0] }
    s.otp.rollback ≤ 256 ∧ (match step s with
      | .next s' => decide (s'.pending = [.nop 4 c0] ∧ s.otp.rollback ≤ s'.otp.rollback)
      | _ => false) = true := by decide

/-! ## The manual's worked examples -/

/-- The ASCII string 123456789, each byte's most significant bit first. -/
def nine : List Bool := [0x31, 0x32, 0x33, 0x34, 0x35, 0x36, 0x37, 0x38, 0x39].flatMap fun b => (List.range 8).map fun i => bitN b (7 - i)

set_option maxRecDepth 8192 in
/-- R91 and R314 state these check values. -/
theorem test_crc_check_values : crc16 nine = 0x29B1#16 ∧ crc64 nine = 0x6C40DF5F0B497347#64 := by decide

/-- Sequencer 1 of chapter 05, acq 8, 8, 40 and 8, the last slot powering down: 382 PER cycles. -/
theorem test_sar_pass_length : passLen [(0, 0x100), (1, 0x101), (2, 0x502), (3, 0x2103)] = 382 := by decide

/-- AIN5 of chapter 05, calibrated: raw code 12,806 becomes 12,894. -/
theorem test_sar_correction : sarCorrect 12806 198 1082130432 = (12894, false) := by decide

/-- A result beyond 16 bits is clamped and says so (R182). -/
theorem test_sar_correction_clamps : sarCorrect 32767 198 1082130432 = (32767, true) := by decide

/-- The count of the 16-cell arm of chapter 02: six whole cells and half a cell. -/
theorem test_count_of_example_arm : countOf false false 15 0 25650000 1111500 = ⟨425984, 6, 32768, false, false, 15, 0⟩ := by decide

/-- A reference above the arm's cells saturates (R58). -/
theorem test_count_saturates : (countOf false false 15 0 25650000 9000000).sat = true ∧ (countOf false false 15 0 25650000 9000000).n = 15 := by decide

/-- The keys of the example arm of Table 02-5, with their ports. -/
def exampleArm : List Cand :=
  [(17064, 0, 0), (17068, 0, 1), (17125, 0, 2), (17049, 0, 3), (17080, 0, 4), (17068, 0, 5), (17132, 0, 6), (17051, 0, 7), (17150, 0, 8),
   (17074, 0, 10), (17095, 0, 11), (17090, 0, 12), (17086, 0, 13), (17085, 0, 14), (17073, 0, 15)]

/-- Charging, ports 3, 7, 0, 1, 5 and 15 come first and port 10 is the fractional cell; ports 1 and 5 tie. -/
theorem test_order_of_example_arm :
    [(17049, 0, 3), (17051, 0, 7), (17064, 0, 0), (17068, 0, 1), (17068, 0, 5), (17073, 0, 15), (17074, 0, 10), (17080, 0, 4)].map (rankIn exampleArm true)
      = [0, 1, 2, 3, 4, 5, 6, 7] := by decide

/-- The fractional cell of the example is inserted for half the cycle (R61). -/
theorem test_on_ticks_of_example_arm : onTicks 32768 6250 250 = 3125 := by decide

/-- An on-time below the minimum pulse is none, a gap below it is the whole cycle (R61). -/
theorem test_on_ticks_minimum : onTicks 1000 6250 250 = 0 ∧ onTicks 65000 6250 250 = 6250 := by decide

/-- SAFECFG 0xD5B of chapter 13 is valid and its seal code is 0x2D5B. -/
theorem test_seal_code : cfgValid 0xD5B = true ∧ sealCode 0xD5B = 0x2D5B := by decide

/-- The length of preset P1's impulse response in chapter 04: 83 samples, three void outputs after a swap. -/
theorem test_impulse_response_of_p1 : lIn (preset 5) ⟨2, 0, 0x0700, 0, List.replicate 15 0, []⟩ = 83
    ∧ nInv (preset 5) ⟨2, 0, 0x0700, 0, List.replicate 15 0, []⟩ = 3 := by decide

set_option maxRecDepth 8192 in
/-- The lead of chapter 07 needs 29 reeds. -/
theorem test_reeds_needed_by_example_lead :
    let d : Dev := { run0 with par := { active := [(pkey P.ctl_n_ctl 0, 2), (pkey P.mod_t_mod_ns 0, 5000)] } }
    d.convLead = true ∧ d.rNeed = d.rCrit + d.pn P.cyc_reed_reserve + 13 := by decide

/-- A write in a block that takes none is counted, and no word spells a command. -/
theorem test_no_word_is_a_command : decodeTableWord 32 0xFFFFFFFF = none ∧ State.reset.withFetchWord 32 1 = State.reset := ⟨rfl, rfl⟩

/-! ## Ill-formed commands -/

/-- Commands that name an object the device has not, 1. -/
theorem test_ill_formed_refused_1 :
    (∀ t (b : BootInputs), (Instr.resetLRelease t { b with straps := [] }).wf = false) ∧ (∀ t x2, (Instr.fatalFault t 0 x2).wf = false) ∧
      (∀ t x2, (Instr.fatalFault t 8 x2).wf = false) ∧ (∀ t, (Instr.coreWatchdogExpiry t 4).wf = false) ∧
      (∀ t (b : BootInputs), (Instr.castWriteDone t { b with straps := [] }).wf = false) ∧
      (∀ t, (Instr.sramCorrectedError t (.reedLocal 64)).wf = false) ∧ (∀ t, (Instr.sramCorrectedError t (.granulePool 1024)).wf = false) ∧
      (∀ t, (Instr.sramCorrectedError t (.coefficient 256)).wf = false) ∧ (∀ t, (Instr.sramDoubleError t (.reedLocal 64)).wf = false) ∧
      (∀ t, (Instr.sramDoubleError t (.granulePool 1024)).wf = false) ∧ (∀ t, (Instr.sramDoubleError t (.coefficient 256)).wf = false) ∧
      (∀ t x2, (Instr.tamperSource t 9 x2).wf = false) ∧ (∀ t x1 x3, (Instr.safetyStartupTestDone t x1 4096 x3).wf = false) ∧
      (∀ t x1 x3, (Instr.safetyInputChange t x1 (.sin 8 false) x3).wf = false) ∧
      (∀ t x1 x3, (Instr.safetyInputChange t x1 (.cfg 12) x3).wf = false) ∧ (∀ t x1, (Instr.inputFilterAccept t x1 (.sin 8 false)).wf = false) ∧
      (∀ t x1, (Instr.inputFilterAccept t x1 (.cfg 12)).wf = false) ∧ (∀ t, (Instr.safetyBlockFrameStart t 48).wf = false) ∧
      (∀ t, (Instr.discrepancyLatch t 8).wf = false) ∧ (∀ t, (Instr.channelBDiscrepancy t 8).wf = false) ∧
      (∀ t x2, (Instr.readbackFault t 4 x2).wf = false) ∧ (∀ t x2 x3, (Instr.soutTestPulse t 4 x2 x3).wf = false) ∧
      (∀ t x1, (Instr.safecfgReread t x1 4096).wf = false) ∧ (∀ t, (Instr.modulationCycleStart t (2 ^ 48)).wf = false) ∧
      (∀ t, (Instr.pk4Task t 12).wf = false) ∧ (∀ t, (Instr.kbTask t 6).wf = false) ∧ (∀ t, (Instr.dly4Task t 12).wf = false) ∧
      (∀ t, (Instr.cap4Task t 12).wf = false) ∧ (∀ t b x3, (Instr.keyBlockReceive t 6 b x3).wf = false) ∧
      (∀ t lane (b : KeyBlock) x3, (Instr.keyBlockReceive t lane { b with arm := 8 } x3).wf = false) := by
  and_intros <;> intros <;> (unfold Instr.wf; simp [sramOk, SafePin.ok])

/-- Commands that name an object the device has not, 2. -/
theorem test_ill_formed_refused_2 :
    (∀ t lane (b : KeyBlock) x3, (Instr.keyBlockReceive t lane { b with seg := 16 } x3).wf = false) ∧
      (∀ t, (Instr.keyExchangeDeadline t 6).wf = false) ∧ (∀ t, (Instr.twinFillDeadline t 6).wf = false) ∧ (∀ t, (Instr.countTask t 6).wf = false) ∧
      (∀ t, (Instr.rank4Task t 12).wf = false) ∧ (∀ t, (Instr.armrecTask t 6).wf = false) ∧ (∀ t, (Instr.build4Task t 12).wf = false) ∧
      (∀ t, (Instr.bandTask t 6).wf = false) ∧ (∀ t, (Instr.lawTask t 5).wf = false) ∧ (∀ t n, (Instr.reedSteal t 64 n).wf = false) ∧
      (∀ t reed, (Instr.reedSteal t reed 0).wf = false) ∧ (∀ t reed, (Instr.reedSteal t reed 9).wf = false) ∧
      (∀ t, (Instr.fallbackGeneratorFrame t 48).wf = false) ∧ (∀ t, (Instr.ctrlFrameSend t 48).wf = false) ∧
      (∀ t x2, (Instr.taskWatchdog t 64 x2).wf = false) ∧ (∀ t x2 x3, (Instr.uplinkDataFrame t 48 x2 x3).wf = false) ∧
      (∀ t x2 x3 x4, (Instr.uplinkRespFrame t 48 x2 x3 x4).wf = false) ∧
      (∀ t (u : UpLine), (Instr.uplinkFrameInvalid t { u with port := 48 }).wf = false) ∧ (∀ t, (Instr.uplinkFrameMissing t 48).wf = false) ∧
      (∀ t, (Instr.portRetireFill t 48).wf = false) ∧ (∀ t, (Instr.portStageExit t 48).wf = false) ∧
      (∀ t, (Instr.portStageTimeout t 48).wf = false) ∧ (∀ t, (Instr.retrainTimeout t 48).wf = false) ∧
      (∀ t, (Instr.phaseTrackStep t 48).wf = false) ∧ (∀ t, (Instr.portRealign t 48).wf = false) ∧ (∀ t, (Instr.healthWarnPersist t 48).wf = false) ∧
      (∀ t, (Instr.bypassUnconfirmed t 48).wf = false) ∧ (∀ t, (Instr.cellBlockRelease t 0).wf = false) ∧
      (∀ t x2, (Instr.refBlockRelease t 0 x2).wf = false) ∧ (∀ t, (Instr.streamPerm t 104).wf = false) := by
  and_intros <;> intros <;> (unfold Instr.wf; simp)

/-- Commands that name an object the device has not, 3. -/
theorem test_ill_formed_refused_3 :
    (∀ t, (Instr.bankSwapStart t 104).wf = false) ∧ (∀ t raw x3, (Instr.sarConversionEnd t 4 raw x3).wf = false) ∧
      (∀ t adc x3, (Instr.sarConversionEnd t adc (-32769) x3).wf = false) ∧ (∀ t adc x3, (Instr.sarConversionEnd t adc 32768 x3).wf = false) ∧
      (∀ t, (Instr.sarPassStart t 4).wf = false) ∧ (∀ t, (Instr.sarPassEnd t 4).wf = false) ∧ (∀ t, (Instr.sarCalComplete t 4).wf = false) ∧
      (∀ t masks, (Instr.wantReceive t 6 masks).wf = false) ∧ (∀ t lane, (Instr.wantReceive t lane [0, 0, 0, 0]).wf = false) ∧
      (∀ t b, (Instr.refRecReceive t 8 b).wf = false) ∧ (∀ t lane (b : RefBlock), (Instr.refRecReceive t lane { b with present := 64 }).wf = false) ∧
      (∀ t r, (Instr.armRecReceive t 8 r).wf = false) ∧ (∀ t lane (r : ArmMeas), (Instr.armRecReceive t lane { r with arm := 6 }).wf = false) ∧
      (∀ t r, (Instr.armRecReceive t 4 r).wf = false) ∧ (∀ t b, (Instr.droneReceive t 6 b).wf = false) ∧
      (∀ t lane (b : Drone), (Instr.droneReceive t lane { b with role := 0 }).wf = false) ∧
      (∀ t lane (b : Drone), (Instr.droneReceive t lane { b with role := 4 }).wf = false) ∧
      (∀ t (f : HbFrame), (Instr.hbFrameReceive t { f with role := 0 }).wf = false) ∧
      (∀ t (f : HbFrame), (Instr.hbFrameReceive t { f with role := 4 }).wf = false) ∧
      (∀ t (f : HbFrame), (Instr.hbFrameReceive t { f with cycle := 2 ^ 32 }).wf = false) ∧
      (∀ t (f : HbFrame), (Instr.hbFrameReceive t { f with lease := 2 ^ 16 }).wf = false) ∧
      (∀ t x2 m x4, (Instr.refFwdReceive t 6 x2 m x4).wf = false) ∧ (∀ t lane x2 x4, (Instr.refFwdReceive t lane x2 8 x4).wf = false) ∧
      (∀ t low x3, (Instr.repairReqReceive t 6 low x3).wf = false) ∧ (∀ t lane x3, (Instr.repairReqReceive t lane 16384 x3).wf = false) ∧
      (∀ t low x3, (Instr.repairDataReceive t 6 low x3).wf = false) ∧ (∀ t lane x3, (Instr.repairDataReceive t lane 16384 x3).wf = false) ∧
      (∀ t x2, (Instr.timeBlockSend t 3 x2).wf = false) ∧ (∀ t x2 x3, (Instr.timeBlockReceive t 8 x2 x3).wf = false) ∧
      (∀ t x2 x3, (Instr.timeBlockReceive t 4 x2 x3).wf = false) := by
  and_intros <;> intros <;> (unfold Instr.wf; simp)

/-- Commands that name an object the device has not, 4. -/
theorem test_ill_formed_refused_4 :
    (∀ t x2, (Instr.helloReceive t 8 x2).wf = false) ∧ (∀ t x2, (Instr.delayBlockSend t 8 x2).wf = false) ∧
      (∀ t x2 x3, (Instr.delayBlockReceive t 8 x2 x3).wf = false) ∧ (∀ t x2 x3, (Instr.linkStateReceive t 4 x2 x3).wf = false) ∧
      (∀ t seq x3, (Instr.ackReceive t 4 seq x3).wf = false) ∧ (∀ t port x3, (Instr.ackReceive t port 256 x3).wf = false) ∧
      (∀ t, (Instr.ackTimeout t 4).wf = false) ∧ (∀ t, (Instr.laneCmdRetrain t 8).wf = false) ∧ (∀ t, (Instr.laneCmdDown t 8).wf = false) ∧
      (∀ t, (Instr.laneCmdIdleReq t 8).wf = false) ∧ (∀ t x2, (Instr.fabricBadBlock t 8 x2).wf = false) ∧
      (∀ t, (Instr.laneLockLoss t 8).wf = false) ∧ (∀ t, (Instr.laneSignalDetect t 8).wf = false) ∧
      (∀ t x2, (Instr.laneStageExit t 8 x2).wf = false) ∧ (∀ t, (Instr.laneStageTimeout t 8).wf = false) ∧
      (∀ t, (Instr.fastRetrainTimeout t 8).wf = false) ∧ (∀ t, (Instr.retrainFailTimeout t 8).wf = false) ∧
      (∀ t, (Instr.linkBringupTimeout t 4).wf = false) ∧ (∀ t, (Instr.laneIdleTimer t 8).wf = false) ∧
      (∀ t x2 x3 x4 x5, (Instr.elasticBlockReceive t 8 x2 x3 x4 x5).wf = false) ∧ (∀ t, (Instr.skipSend t 8).wf = false) ∧
      (∀ t, (Instr.freqEstimate t 8).wf = false) ∧ (∀ t seq u, (Instr.messageUnitReceive t 8 seq u).wf = false) ∧
      (∀ t lane u, (Instr.messageUnitReceive t lane 256 u).wf = false) ∧
      (∀ t lane seq (u : FabUnit), (Instr.messageUnitReceive t lane seq { u with len := 0 }).wf = false) ∧
      (∀ t lane seq (u : FabUnit), (Instr.messageUnitReceive t lane seq { u with bulk := false, len := 65537 }).wf = false) ∧
      (∀ t lane seq (u : FabUnit), (Instr.messageUnitReceive t lane seq { u with bulk := true, len := 4194305 }).wf = false) ∧
      (∀ t lane seq (u : FabUnit), (Instr.messageUnitReceive t lane seq { u with hops := 256 }).wf = false) ∧
      (∀ t qp level x4, (Instr.tunnelCommandReceive t 4096 qp level x4).wf = false) ∧
      (∀ t gw level x4, (Instr.tunnelCommandReceive t gw 8 level x4).wf = false) := by
  and_intros <;> intros <;> (unfold Instr.wf; simp)

/-- Commands that name an object the device has not, 5. -/
theorem test_ill_formed_refused_5 :
    (∀ t gw qp x4, (Instr.tunnelCommandReceive t gw qp 3 x4).wf = false) ∧ (∀ t x2 dev x4, (Instr.tunnelReplyReceive t 8 x2 dev x4).wf = false) ∧
      (∀ t qp x2 x4, (Instr.tunnelReplyReceive t qp x2 4096 x4).wf = false) ∧ (∀ t x2, (Instr.tunnelTimeout t 8 x2).wf = false) ∧
      (∀ t, (Instr.stateUnitReceive t ⟨some 5, none, 0, 0⟩).wf = false) ∧ (∀ t, (Instr.stateUnitReceive t ⟨none, some 3, 0, 0⟩).wf = false) ∧
      (∀ t, (Instr.stateUnitReceive t ⟨none, none, 0, 0⟩).wf = false) ∧ (∀ t, (Instr.stateUnitReceive t ⟨some 0, some 0, 0, 0⟩).wf = false) ∧
      (∀ t x1, (Instr.cancelUnitReceive t x1 65536).wf = false) ∧
      (∀ t (m : BlockMsg), (Instr.blockRequestReceive t { m with bit := 13 }).wf = false) ∧ (∀ t x2, (Instr.triggerBlockReceive t 8 x2).wf = false) ∧
      (∀ t, (Instr.followingError t 7).wf = false) ∧ (∀ t, (Instr.busPulseSend t 4).wf = false) ∧
      (∀ t x2 x3, (Instr.busEdgeReceive t 4 x2 x3).wf = false) ∧ (∀ t prod payload, (Instr.queuePushEnd t 1024 prod payload).wf = false) ∧
      (∀ t q payload, (Instr.queuePushEnd t q 256 payload).wf = false) ∧ (∀ t q prod, (Instr.queuePushEnd t q prod []).wf = false) ∧
      (∀ t x2, (Instr.queuePop t 1024 x2).wf = false) ∧ (∀ t, (Instr.waitPopComplete t 1024).wf = false) ∧
      (∀ t prod, (Instr.producerStallResume t 1024 prod).wf = false) ∧ (∀ t q, (Instr.producerStallResume t q 256).wf = false) ∧
      (∀ t x2, (Instr.fcInChange t 4 x2).wf = false) ∧ (∀ t x2 x3, (Instr.descriptorFetch t 8 x2 x3).wf = false) ∧
      (∀ t x1 x3, (Instr.completionWrite t x1 8 x3).wf = false) ∧ (∀ t, (Instr.interruptSignal t 8).wf = false) ∧
      (∀ t x1 remote, (Instr.tlsHandshakeDone t x1 3 remote).wf = false) ∧ (∀ t x1 role, (Instr.tlsHandshakeDone t x1 role 65536).wf = false) ∧
      (∀ t x2, (Instr.sessionFrameReceive t 4 x2).wf = false) ∧ (∀ t, (Instr.pingReceive t 4).wf = false) ∧
      (∀ t, (Instr.sessionIdleTimeout t 4).wf = false) := by
  and_intros <;> intros <;> (unfold Instr.wf; simp [itemOk, stateMsgOk])

/-- Commands that name an object the device has not, 6. -/
theorem test_ill_formed_refused_6 :
    (∀ t, (Instr.sessionClose t 4).wf = false) ∧ (∀ t x2, (Instr.sqTailWrite t 8 x2).wf = false) ∧ (∀ t x2, (Instr.cqHeadWrite t 8 x2).wf = false) ∧
      (∀ t x2, (Instr.qpEnable t 8 x2).wf = false) ∧ (∀ t x2, (Instr.qpDisable t 8 x2).wf = false) ∧ (∀ t, (Instr.chresLoRead t 24).wf = false) ∧
      (∀ t, (Instr.selftestComplete t 32).wf = false) ∧ (∀ t x1 x2 (b : BootInputs), (Instr.sysReset t x1 x2 { b with straps := [] }).wf = false) ∧
      (∀ t x1 (b : BootInputs), (Instr.fwActivate t x1 { b with straps := [] }).wf = false) ∧ (∀ t x2, (Instr.pmbusPoll t 8 x2).wf = false) ∧
      (∀ t x2, (Instr.domainFault t 0 x2).wf = false) ∧ (∀ t x2, (Instr.domainFault t 12 x2).wf = false) ∧
      (∀ t, (Instr.domainRestore t 0).wf = false) ∧ (∀ t, (Instr.domainRestore t 12).wf = false) ∧
      (∀ t, (Instr.portReceiverLockLoss t 48).wf = false) ∧ (∀ t, (Instr.ackSend t 4).wf = false) ∧
      (∀ t (b : BootInputs), (Instr.ioRailsInRange t { b with straps := [] }).wf = false) ∧
      (∀ t (c : TwinChange), (Instr.twinCmdReceive t (.change { c with port := 48 })).wf = false) ∧
      (∀ t (c : TwinChange), (Instr.twinCmdReceive t (.changeAck { c with port := 48 })).wf = false) := by
  and_intros <;> intros <;> (unfold Instr.wf; simp [twinCmdOk])

end Sys2Proof.Tests
end

section
/-!
Host commands that answer at once: how a command that is accepted runs, by the one effect its body has. Then the parameter
set (R405) and the access to the granule queues (R414).
-/
namespace Sys2Proof.Machine

open Sys2Proof

/-! ## Commands that answer at once -/

/-- What the transmitters do by the command's instant does not decide whether it may start. -/
theorem State.at_accepts {s : State} {c : CmdRef} {op : Nat} (t : Nat) (h : s.dev.accepts c op) :
    (s.at t).dev.accepts c op := by
  obtain ⟨_, _, _, _, e⟩ := State.at_eq s t
  rw [e]; exact h

section
variable {i : Instr} {s : State} {t : Nat} {c : CmdRef} {op : Nat} {body : Dev → Dev × CmdResult} {r : CmdResult}

/-- An accepted command leaves the device as its body does, with the body's result in the in-flight list. -/
theorem exec_runCmd {d : Dev} (hi : exec i s = s.upd t true fun _ d => d.runCmd c op body) (ha : s.dev.accepts c op)
    (hb : body (s.at t).dev = (d, r)) :
    exec i s = .next { s with dev := s.dev.until t { d with host := { d.host with inflight := setResult c op r d.host.inflight } } } := by
  have hx : c.xfer = .ok := ha.2.2
  rw [hi, State.upd_true, Dev.runCmd_accepts _ _ _ _ (State.at_accepts t ha), hb, Dev.complete_ok _ _ _ _ hx]

/-- An accepted command whose body changes nothing is answered, and nothing else changes. -/
theorem runs_answered (hi : exec i s = s.upd t true fun _ d => d.runCmd c op body) (ha : s.dev.accepts c op)
    (hb : body (s.at t).dev = ((s.at t).dev, r)) : Runs i s fun s' => Answered c op r s s' ∧ Only [.host] t s s' := by
  refine ⟨_, exec_runCmd hi ha hb, ?_, only_of rfl rfl ?_⟩
  · simp [Answered, Dev.until]
  · intro p hp
    cases p <;> simp_all [Part.kept, Dev.until]

/-- An accepted command whose body changes the parameters only is answered, and nothing else changes. -/
theorem runs_answered_par {q : Params} (hi : exec i s = s.upd t true fun _ d => d.runCmd c op body) (ha : s.dev.accepts c op)
    (hb : body (s.at t).dev = ({ (s.at t).dev with par := q }, r)) :
    Runs i s fun s' => s'.dev.par = q ∧ Answered c op r s s' ∧ Only [.par, .host] t s s' := by
  refine ⟨_, exec_runCmd hi ha hb, rfl, ?_, only_of rfl rfl ?_⟩
  · simp [Answered, Dev.until]
  · intro p hp
    cases p <;> simp_all [Part.kept, Dev.until]

end

/-- A weaker statement about the next state. -/
theorem Runs.imp {i : Instr} {s : State} {P Q : State → Prop} (hr : Runs i s P) (h : ∀ s', P s' → Q s') : Runs i s Q := by
  obtain ⟨s', hs, hp⟩ := hr
  exact ⟨s', hs, h s' hp⟩

/-! ## The values of a PARAM_SET -/

/-- The values of a PARAM_SET: element `j` is spelt by its bytes in their place. -/
theorem unpack_eq_map (ty : ParamType) (n : Nat) (values : List Byte) :
    unpack ty n values = (List.range n).map fun j => ty.ofBytes ((values.drop (j * ty.bytes)).take ty.bytes) := by
  induction n generalizing values with
  | zero => rfl
  | succ n ih => simp [unpack, ih, List.range_succ_eq_map, Nat.succ_mul, Nat.add_comm]

/-- Every element within its range: no first bad one. -/
theorem firstBad_eq_none {r : ParamRange} {i : Nat} {vs : List Int}
    (h : ∀ j (hj : j < vs.length), r.has (i + j) vs[j] = true) : firstBad r i vs = none := by
  induction vs generalizing i with
  | nil => rfl
  | cons v vs ih =>
    have hv : r.has i v = true := h 0 (by simp)
    rw [firstBad, if_pos hv]
    refine ih fun j hj => ?_
    rw [Nat.add_right_comm]
    exact h (j + 1) (by simpa using hj)

/-- The first element outside its range is found, with its index. -/
theorem firstBad_eq_some {r : ParamRange} {i j : Nat} {vs : List Int} (hj : j < vs.length) (hbad : r.has (i + j) vs[j] = false)
    (hgood : ∀ k (hk : k < j), r.has (i + k) vs[k] = true) : firstBad r i vs = some (i + j) := by
  induction vs generalizing i j with
  | nil => simp at hj
  | cons v vs ih =>
    cases j with
    | zero => simp_all [firstBad]
    | succ j =>
      have hv : r.has i v = true := hgood 0 (by omega)
      rw [firstBad, if_pos hv, ih (j := j) (by simpa using hj), Nat.add_right_comm, Nat.add_assoc]
      · rw [Nat.add_right_comm]; exact hbad
      · intro k hk
        rw [Nat.add_right_comm]
        exact hgood (k + 1) (by omega)

/-- The elements written leave every other key as it was. -/
theorem find_setElems_of_ne {id i k : Nat} {vs : List Int} {m : Tab Int} (h : ∀ j < vs.length, k ≠ pkey id (i + j)) :
    (setElems id i vs m).find k = m.find k := by
  induction vs generalizing i m with
  | nil => rfl
  | cons v vs ih =>
    have hk : k ≠ pkey id i := h 0 (by simp)
    rw [setElems, ih, Tab.find_set, if_neg hk]
    intro j hj
    rw [Nat.add_right_comm]
    exact h (j + 1) (by simpa using hj)

/-- Each element written is found under its key, whatever was there. -/
theorem find_setElems_pkey {id i j : Nat} {vs : List Int} {m : Tab Int} (hj : j < vs.length) :
    (setElems id i vs m).find (pkey id (i + j)) = some vs[j] := by
  induction vs generalizing i j m with
  | nil => simp at hj
  | cons v vs ih =>
    cases j with
    | zero =>
      rw [setElems, find_setElems_of_ne (fun j _ => by simp [pkey]; omega), Tab.find_set]
      simp
    | succ j =>
      have e : i + (j + 1) = i + 1 + j := by omega
      rw [setElems, e, ih (by simpa using hj)]
      rfl

/-! ## PARAM_SET (R405) -/

/-- Settles O54: each check in its order, by the body of the command at the state's instant; the values are the list of the
elements' values, whose first bad one `firstBad` finds and which `setElems` writes under their own keys. -/
theorem paramSetChecksBeforeItWrites : Obligations.ParamSetChecksBeforeItWrites := by
  unfold Obligations.ParamSetChecksBeforeItWrites
  intro s t c
  refine ⟨fun id ha hx index count type values => runs_answered rfl ha (by simp [hx]),
    fun id x index count type values ha hx h1 h4096 => ?_⟩
  have hcount : ¬ (count = 0 ∨ 4096 < count) := by omega
  refine ⟨fun hout => runs_answered rfl ha (by simp [hx, hcount, hout]), fun hin => ?_⟩
  have hin' : ¬ x.count < index + count := by omega
  refine ⟨fun hty => runs_answered rfl ha (by simp [hx, hcount, hin', hty]), fun hty hlen => ?_⟩
  have hargs : ¬ (type ≠ x.ty.code ∨ values.length < count * x.ty.bytes) := by omega
  refine ⟨fun hsafe => runs_answered rfl ha (by simp [hx, hcount, hin', hargs, hsafe]),
    fun hsafe hlock hex => runs_answered rfl ha (by simp [hx, hcount, hin', hargs, hsafe, hlock, hex]),
    fun hsafe hopen => ?_⟩
  have hopen' : ¬ ((s.at t).dev.par.lock = true ∧ (!lockExempt id) = true) := by
    rcases hopen with h | h <;> simp [h]
  constructor
  · intro j hj hbad hgood
    have hfirst : firstBad x.range index (unpack x.ty count values) = some (index + j) := by
      rw [unpack_eq_map]
      exact firstBad_eq_some (by simpa using hj) (by simpa using hbad) (by simpa using hgood)
    exact runs_answered rfl ha (by simp only [hx, hcount, hin', hargs, hsafe, hopen', hfirst, Bool.false_eq_true, if_false])
  · intro hall
    have hnone : firstBad x.range index (unpack x.ty count values) = none := by
      rw [unpack_eq_map]
      exact firstBad_eq_none (by simpa using hall)
    have hrun := runs_answered_par (i := .paramSet t c id index count type values) (r := stRes Sc.DONE)
      (q := { (s.at t).dev.par with pending := setElems id index (unpack x.ty count values) (s.at t).dev.par.pending }) rfl ha
      (by simp only [hx, hcount, hin', hargs, hsafe, hopen', hnone, Bool.false_eq_true, if_false])
    refine hrun.imp fun s' ⟨hpar, hans, honly⟩ => ?_
    rw [hpar, State.at_par, unpack_eq_map]
    refine ⟨fun j hj => ?_, fun k hk => find_setElems_of_ne (by simpa using hk), rfl, hans, honly⟩
    rw [find_setElems_pkey (by simpa using hj)]
    simp

/-! ## The host's access to the queues (R414) -/

/-- A parameter's value does not depend on what the transmitters have begun to send. -/
@[simp] theorem State.at_pvi (s : State) (t id i : Nat) : (s.at t).dev.pvi id i = s.dev.pvi id i := by
  obtain ⟨_, _, _, _, e⟩ := State.at_eq s t
  rw [e]; rfl

@[simp] theorem State.at_hostMay (s : State) (t n : Nat) : (s.at t).dev.hostMay n = s.dev.hostMay n := by
  simp [Dev.hostMay, Dev.pni]

@[simp] theorem State.at_queue (s : State) (t n : Nat) : (s.at t).dev.queue n = s.dev.queue n := by
  simp [Dev.queue]

/-- Settles O56: of an existing queue each command's body first asks que.host, and QUE_POP then whether an item is there. -/
theorem hostReachesAQueueOnlyAsAllowed : Obligations.HostReachesAQueueOnlyAsAllowed := by
  unfold Obligations.HostReachesAQueueOnlyAsAllowed
  intro s t n c hn
  have hn' : ¬ 1024 ≤ n := by omega
  refine ⟨fun hnone => ⟨?info, ?flush⟩, fun k len hk ha => ?pop, ?push⟩
  case info => exact fun ha => runs_answered rfl ha (by simp [hn', hnone])
  case flush => exact fun ha => runs_answered rfl ha (by simp [hn', hnone])
  case pop =>
    have hk' : ¬ (1024 ≤ n ∨ 256 < k) := by omega
    exact ⟨fun hmay => runs_answered rfl ha (by simp [hk', hmay]),
      fun hmay hempty => runs_answered rfl ha (by simp [hk', hmay, hempty])⟩
  case push => exact fun k data ha hmay => runs_answered rfl ha (by simp [hn', hmay])

end Sys2Proof.Machine
end
